-- ==== Sys2Proof/Word.lean ====
section
/-!
DEFINITION. The widths of the pcrypt CORE's data (R15, R16): bytes, 32-bit words and 256-byte blocks,
and the two ways the model builds a sequence of a fixed length.
-/
namespace Sys2Proof

/-- An unsigned 8-bit value, the spec's u8 (R15). -/
abbrev Byte := BitVec 8

/-- An unsigned 32-bit value, the spec's u32 (R15). -/
abbrev Word := BitVec 32

/-- A block: a byte sequence of length 256 (R16). -/
abbrev Block := Vector Byte 256

/-- The sequence of length `n` whose element `i` is `f i`. -/
def tabulate {α : Type} (n : Nat) (f : Fin n → α) : Vector α n :=
  ⟨⟨(List.finRange n).map f⟩, by simp⟩

/-- The first `n` bytes of `l`; positions past its end hold 0, and no rule of the model reaches them. -/
def fill (n : Nat) (l : List Byte) : Vector Byte n :=
  ⟨⟨l.takeD n 0⟩, by simp⟩

end Sys2Proof
end

