-- ==== Sys2Proof/Config.lean ====
section
/-!
DEFINITION. What an instance of the block fixes (the implementation parameters R8 to R13 and REG_BASE of R59)
and the free values: what the spec calls a draw (`any value`) or leaves without an order.
The parameters are plain data carried by the state, so that a statement about every state is a statement
about every choice of them (DESIGN CHOICE, assumption 1). The free values have no body (assumptions 4, 5).
-/
namespace Sys2Proof

/-- `CHAIN_TAP` (R10): which form of a processed block becomes the next block's keystream. -/
inductive ChainTap where
  | prePerm
  | postPerm
  deriving DecidableEq, Repr

/-- `PAD0_MODE` (R11): how decode reads a stored pad-count byte of value 0. -/
inductive Pad0Mode where
  | zeroIs256
  | zeroIsCorrupt
  deriving DecidableEq, Repr

/-- A permutation table (R13): entry `j` is the index of the source word of result word `j` (R121). -/
abbrev Table := Vector (Fin 64) 64

/-- The identity table, the source's placeholder (R13, R122). -/
def Table.identity : Table := tabulate 64 id

/-- The implementation parameters of one instance (R8, R10, R11, R13; REG_BASE: R23, R59). -/
structure Params where
  memSize : Nat
  regBase : Nat
  chainTap : ChainTap
  pad0Mode : Pad0Mode
  pFwd : Table
  pInv1 : Table
  pInv2 : Table
  deriving DecidableEq, Repr

/-- The defaults of R10, R11 and R13. DESIGN CHOICE (assumption 1): MEM_SIZE and REG_BASE are OPEN (R8, R59);
0x1000 is the size the spec's own programs assume, 0 a multiple of 512. Unsafe for a claim about a run from reset. -/
def Params.default : Params where
  memSize := 0x1000
  regBase := 0
  chainTap := .prePerm
  pad0Mode := .zeroIs256
  pFwd := Table.identity
  pInv1 := Table.identity
  pInv2 := Table.identity

/-- Free value number `n` of the instance whose window is at `base`, as a 32-bit word: a register read while BUSY = 1
(R215) and PEND after a platform reset (R210). No body: nothing can be proved of its value. DESIGN CHOICE (assumption 4):
an instance is named by its REG_BASE, so the free values of two instances of a platform are unrelated (R9, R205). -/
opaque Config.freeWord (base n : Nat) : Word

/-- Free value number `n` of the instance whose window is at `base`, as a byte: a buffer-memory read while BUSY = 1
(R214). DESIGN CHOICE (assumption 4): named by REG_BASE, as `Config.freeWord` is. -/
opaque Config.freeByte (base n : Nat) : Byte

/-- Free choice number `n` of the instance whose window is at `base`: whether the completion step comes before the
host's next access (R191, R211, R218). DESIGN CHOICE (assumption 5): named by REG_BASE, so two instances of a platform
take their orders independently (R9, R205, R211). -/
opaque Config.coreMovesFirst (base n : Nat) : Bool

end Sys2Proof
end

