-- ==== Sys2Proof/Syntax.lean ====
section
/-!
DEFINITION. The commands of the opcode map (R71): one constructor for each row of spec/opcode_table.json.
No command word carries an operand (R72), so no constructor has an argument.
-/
namespace Sys2Proof

/-- The twelve commands (R71). -/
inductive Instr where
  /-- LCG_NEXT (R91) -/
  | lcgNext
  /-- KS_SEED (R102) -/
  | ksSeed
  /-- KS_IV (R103) -/
  | ksIv
  /-- MARK (R111) -/
  | mark
  /-- SHUF2 (R123) -/
  | shuf2
  /-- UNSHUF1 (R124) -/
  | unshuf1
  /-- UNSHUF2 (R125) -/
  | unshuf2
  /-- ENC_BLK (R137) -/
  | encBlk
  /-- DEC_BLK1 (R138) -/
  | decBlk1
  /-- DEC_BLK2 (R139) -/
  | decBlk2
  /-- ENCODE (R150) -/
  | encode
  /-- DECODE (R161) -/
  | decode
  deriving DecidableEq, Repr

end Sys2Proof
end

