-- ==== Sys2Proof/WellFormed.lean ====
section
/-!
DEFINITION. Which syntax and which parameters the spec allows. A command has no operand field (R72), so every
`Instr` is well-formed; the checks are on the parameters (R8, R13, R59). A command word's reserved field (R70) is the
decoder's to check.
-/
namespace Sys2Proof

/-- Every command is well-formed: it has no operand that could be out of range (R72). -/
def Instr.wf (_ : Instr) : Bool := true

/-- `1 <= MEM_SIZE <= 2^32` (R8). -/
abbrev Params.MemSizeOk (p : Params) : Prop := 1 ≤ p.memSize ∧ p.memSize ≤ 2 ^ 32

/-- `REG_BASE` is aligned to 512 bytes (R59). -/
abbrev Params.RegBaseOk (p : Params) : Prop := p.regBase % 512 = 0

/-- A table is a bijection of {0..63} (R13): 64 entries, none twice. -/
abbrev Table.Bijective (T : Table) : Prop := T.toList.Nodup

/-- `A[B[j]] = j` for every j, the constraint R13 puts on `P_FWD` and `P_INV2`. -/
abbrev Table.Inverts (A B : Table) : Prop := ∀ j : Fin 64, A[(B[j.val]).val] = j

/-- The parameters of an instance meet R8, R13 and R59. -/
structure Params.Ok (p : Params) : Prop where
  memSize : p.MemSizeOk
  regBase : p.RegBaseOk
  fwd : p.pFwd.Bijective
  inv1 : p.pInv1.Bijective
  inv2 : p.pInv2.Bijective
  inverse : Table.Inverts p.pFwd p.pInv2

end Sys2Proof
end

