-- ==== Sys2Proof/Decode.lean ====
section
/-!
DEFINITION. The command word (R70), the opcode map (R71), illegal words (R73), the decoder, and after it the
encoder. A command word is the data of one 32-bit host write (R64, R70): there are no command bytes in memory.
-/
namespace Sys2Proof

/-- Why a word is no command (R73). At its completion either reason is IllegalCommand. -/
inductive Illegal where
  /-- `RSV != 0`; holds the field. -/
  | reservedBits (rsv : BitVec 24)
  /-- `RSV = 0` and `OPC` is not in the opcode map; holds the opcode. -/
  | unassignedOpcode (opc : Byte)
  deriving DecidableEq, Repr

/-- `OPC` = bits [7:0] (R70). -/
def opcField (w : Word) : Byte := w.extractLsb' 0 8

/-- `RSV` = bits [31:8] (R70). -/
def rsvField (w : Word) : BitVec 24 := w.extractLsb' 8 24

/-- The opcode map of R71, row by row. -/
def opcodeMap : List (Byte × Instr) :=
  [(0x01, .lcgNext), (0x02, .ksSeed), (0x03, .ksIv), (0x04, .mark),
   (0x05, .shuf2), (0x06, .unshuf1), (0x07, .unshuf2),
   (0x08, .encBlk), (0x09, .decBlk1), (0x0A, .decBlk2),
   (0x10, .encode), (0x11, .decode)]

/-- The command a word selects, or why it selects none (R71, R73). -/
def decode (w : Word) : Except Illegal Instr :=
  if rsvField w = 0 then
    match opcodeMap.lookup (opcField w) with
    | some i => .ok i
    | none => .error (.unassignedOpcode (opcField w))
  else .error (.reservedBits (rsvField w))

/-- The opcode of each command (R71). -/
def opcodeOf : Instr → Byte
  | .lcgNext => 0x01
  | .ksSeed => 0x02
  | .ksIv => 0x03
  | .mark => 0x04
  | .shuf2 => 0x05
  | .unshuf1 => 0x06
  | .unshuf2 => 0x07
  | .encBlk => 0x08
  | .decBlk1 => 0x09
  | .decBlk2 => 0x0A
  | .encode => 0x10
  | .decode => 0x11

/-- The command word of a command: `RSV` zero above its opcode (R70, R71). -/
def encode (i : Instr) : Word := (0 : BitVec 24) ++ opcodeOf i

/-- The decoder on an instruction numbered as spec/opcode_table.json numbers it. A command is one 32-bit word
(R70): bits at and above `nbits` are 0, and a number that does not fit in 32 bits is no command word. -/
def decodeTableWord (nbits w : Nat) : Option Instr :=
  if w % 2 ^ nbits < 2 ^ 32 then
    match decode (BitVec.ofNat 32 (w % 2 ^ nbits)) with
    | .ok i => some i
    | .error _ => none
  else none

end Sys2Proof
end

