-- ==== Sys2Proof/Machine/Constants.lean ====
section
/-!
DEFINITION. The block's fixed constants (R12), in one place so that a correction touches one definition
(91_not_in_source.md N6), and the bit-field helpers of R15.
-/
namespace Sys2Proof.Machine

/-- The generator's multiplier (R12, R90). -/
def lcgMultiplier : Word := 0x41C64E6D

/-- The generator's increment (R12, R90). -/
def lcgIncrement : Word := 0x3039

/-- The marker's first mask, XORed with the byte (R12, R110). -/
def markFlip : Byte := 0x0C

/-- The mask of the inverted bits (R12, R110). -/
def markInverted : Byte := 0x67

/-- The mask of the bits kept as they are (R12, R110). -/
def markKept : Byte := 0x98

/-- The mask XORed with the two together (R12, R110). -/
def markMix : Byte := 0x6F

/-- The mask of the bit added at the end (R12, R110). -/
def markAdded : Byte := 0x08

/-- The length of the v3 header (R12, R76). -/
def seedHeaderLen : Nat := 4

/-- The length of the IV of a v1 or v2 buffer (R12, R77, R78). -/
def ivLen : Nat := 32

/-- The length of a block (R12, R16). -/
def blockLen : Nat := 256

/-- The shortest buffer decode accepts (R12, R155). -/
def minDecodeLen : Nat := 261

/-- The value of ID (R33). -/
def idValue : Word := 0x50435259

/-- `v[23:16]` of a 32-bit value, the generator's output bit field (R12, R15). -/
def outputField (v : Word) : Byte := v.extractLsb' 16 8

/-- `rotl8(x, r)` for `0 <= r <= 7` (R15). -/
def rotl8 (x : Byte) (r : Nat) : Byte := (x <<< r) ||| (x >>> (8 - r))

/-- `BE32(b0, b1, b2, b3)` (R15): the first byte is the most significant. -/
def be32 (b0 b1 b2 b3 : Byte) : Word := b0 ++ b1 ++ b2 ++ b3

/-- `BE32bytes(s)` (R15). -/
def be32Bytes (s : Word) : List Byte :=
  [s.extractLsb' 24 8, s.extractLsb' 16 8, s.extractLsb' 8 8, s.extractLsb' 0 8]

/-- The source's slice notation `B[a:b]` (R15). -/
def slice (B : List Byte) (a b : Nat) : List Byte := (B.drop a).take (b - a)

end Sys2Proof.Machine
end

