-- ==== Sys2Proof/Machine/State.lean ====
section
/-!
DEFINITION. The state of one block instance (R20): the register file (R23 to R34), the keystream register (R35),
the hidden latch (R36), the buffer memory (R50), the instance's parameters, and the model's own fields that stand
for the host agent (R196) and the free values. What can stop a step, and the state after reset (R210).
-/
namespace Sys2Proof.Machine

/-- The completion codes 0 to 7 of R185; codes 8 to 15 are never produced. -/
inductive Code where
  | ok
  | tooShort
  | unknownVersion
  | integrityMismatch
  | corruptPadding
  | rangeError
  | overlapError
  | illegalCommand
  deriving DecidableEq, Repr

/-- The three encoding versions (R4). -/
inductive Version where
  | v1
  | v2
  | v3
  deriving DecidableEq, Repr

/-- The fields of STATUS (R25). The reserved bits have no storage; `ver` is `none` where the field reads 0. -/
structure Status where
  busy : Bool
  done : Bool
  ovr : Bool
  err : Code
  ver : Option Version
  deriving DecidableEq, Repr

/-- The registers of the window (R23). `reserved i` is the register at offset 0x02C + 4i. -/
inductive Reg where
  | cmd
  | status
  | ctrl
  | seed
  | srcAddr
  | srcLen
  | dstAddr
  | dstLen
  | data
  | id
  | cfg
  | reserved (i : Fin 53)
  | ksw (i : Fin 64)
  deriving DecidableEq, Repr

/-- One thing the outside world does to the block: a step of the host agent (R57, R196) or the platform's reset
input (R210). Widths are in bits, offsets relative to REG_BASE. A form outside the interface can be written
down, so that the model can refuse it. -/
inductive Access where
  | readReg (width offset : Nat)
  | writeReg (width offset : Nat) (value : Word)
  | readMem (width addr : Nat)
  | writeMem (width addr : Nat) (value : Byte)
  /-- The host waits until BUSY = 0 (R75, R196). -/
  | wait
  /-- The platform's reset input (R210). -/
  | reset
  deriving DecidableEq, Repr

/-- What a host read returned. -/
inductive Seen where
  | reg (offset : Nat) (value : Word)
  | byte (addr : Nat) (value : Byte)
  deriving DecidableEq, Repr

/-- The spec has no fault: an error is a completion code and the machine goes on (R193), so nothing raises one. -/
inductive Fault where
  deriving DecidableEq, Repr

/-- Why a step is given no meaning. -/
inductive Refusal where
  /-- Raised by an arm of `exec` for an instruction that has no meaning yet; no arm of this model raises it. Safe. -/
  | notModelled (mnemonic : String)
  /-- Raised by a host register access of a width other than 32 bits, at an offset that is not a multiple of 4, or at
  0x200 or above: outside the block's interface, a model refuses a run that makes one (R57). Safe. -/
  | registerAccess (width offset : Nat)
  /-- Raised by a host buffer access at MEM_SIZE or above: refused in the same way (R57); or of a width other than
  8 bits (DEDUCED from R57 and D3, assumption 8). Safe. -/
  | bufferAccess (width addr : Nat)
  /-- Raised by a host write of buffer memory while BUSY = 1, whose outcome the spec does not give (R214). Safe. -/
  | bufferWriteWhileBusy (addr : Nat)
  deriving DecidableEq, Repr

/-- Buffer memory (R50): the bytes that differ from what an unlisted address reads as, by rising address. -/
abbrev Memory := List Host.Cell

/-- The state of one instance, and of the host that drives it. -/
structure State where
  /-- The instance's parameters (R8, R10, R11, R13, R59); no step changes them. -/
  params : Params
  /-- STATUS (R25). -/
  status : Status
  /-- CTRL.IE (R26). -/
  ie : Bool
  /-- SEED (R27). -/
  seed : Word
  /-- SRC_ADDR (R28). -/
  srcAddr : Word
  /-- SRC_LEN (R29). -/
  srcLen : Word
  /-- DST_ADDR (R30). -/
  dstAddr : Word
  /-- DST_LEN (R31). -/
  dstLen : Word
  /-- DATA[7:0] (R32). -/
  data : Byte
  /-- The keystream register KS (R35). -/
  ks : Block
  /-- The command latch PEND (R36). -/
  pend : Word
  /-- Buffer memory (R50). -/
  mem : Memory
  /-- The model's own: the accesses the outside world has still to make, next first (R196; assumption 6). -/
  script : List Access
  /-- The model's own: what the host's reads have returned, oldest first (assumption 6). -/
  seen : List Seen
  /-- The model's own: how many free values have been used (assumption 4). -/
  draws : Nat
  deriving DecidableEq, Repr

/-- What a step of this machine answers. -/
abbrev Result := Host.Outcome State Fault Refusal

/-- STATUS after reset: every field 0 (R210). -/
def Status.reset : Status where
  busy := false
  done := false
  ovr := false
  err := .ok
  ver := none

/-- The machine right after power-on reset (R210). DESIGN CHOICE: `params` (assumption 1), `pend` (assumption 2: R36
gives PEND no reset value), no byte of memory listed (assumption 3), `script`, `seen` and `draws` (assumptions 4, 6). -/
def State.reset : State where
  params := Params.default
  status := Status.reset
  ie := false
  seed := 0
  srcAddr := 0
  srcLen := 0
  dstAddr := 0
  dstLen := 0
  data := 0
  ks := Vector.replicate 256 0
  pend := 0
  mem := []
  script := []
  seen := []
  draws := 0

end Sys2Proof.Machine
end

