-- ==== Sys2Proof/Machine/Ops.lean ====
section
/-!
DEFINITION. The named operations over the state: one update per field, buffer memory (R50, R54, R57), the block
operations on memory (R17), issuing a command (R190), completing one (R192), and the platform's reset (R210).
The block takes no exception and returns from none: R193 says an error saves no state, changes no mode and
transfers no control. What stands in an exception's place is `finish` with a nonzero code (R17, R192).
-/
namespace Sys2Proof.Machine

/-! ### One update per field -/

def State.setStatus (s : State) (v : Status) : State := { s with status := v }
def State.setIe (s : State) (v : Bool) : State := { s with ie := v }
def State.setSeed (s : State) (v : Word) : State := { s with seed := v }
def State.setSrcAddr (s : State) (v : Word) : State := { s with srcAddr := v }
def State.setSrcLen (s : State) (v : Word) : State := { s with srcLen := v }
def State.setDstAddr (s : State) (v : Word) : State := { s with dstAddr := v }
def State.setDstLen (s : State) (v : Word) : State := { s with dstLen := v }
def State.setData (s : State) (v : Byte) : State := { s with data := v }
def State.setKs (s : State) (v : Block) : State := { s with ks := v }
def State.setPend (s : State) (v : Word) : State := { s with pend := v }
def State.setMem (s : State) (v : Memory) : State := { s with mem := v }
def State.setScript (s : State) (v : List Access) : State := { s with script := v }
def State.setSeen (s : State) (v : List Seen) : State := { s with seen := v }
def State.setDraws (s : State) (v : Nat) : State := { s with draws := v }

/-- One more free value has been used (assumption 4). -/
def State.drawn (s : State) : State := s.setDraws (s.draws + 1)

/-- `reg[STATUS].VER <- v` (R163). -/
def State.setVer (s : State) (v : Option Version) : State := s.setStatus { s.status with ver := v }

/-! ### Buffer memory -/

/-- What an address that is not listed reads as. DESIGN CHOICE (assumption 3): the spec leaves the contents at
power-on unspecified (R50). Unsafe for a claim about memory that nothing has written since reset. -/
def Memory.unlisted : Byte := 0

/-- `Mem[a]` (R17). -/
def Memory.read : Memory → Nat → Byte
  | [], _ => Memory.unlisted
  | (k, b) :: m, a => if k = a then b else Memory.read m a

/-- `MemRead(a, n)` (R17). -/
def Memory.readBytes (m : Memory) (a n : Nat) : List Byte := (List.range' a n).map m.read

/-- The cells that hold `bytes` from address `a` on, those equal to an unlisted address left out. -/
def Memory.cells : Nat → List Byte → Memory
  | _, [] => []
  | a, b :: bytes => if b = Memory.unlisted then Memory.cells (a + 1) bytes else (a, b) :: Memory.cells (a + 1) bytes

/-- `MemWrite(a, n, B)` (R17): the bytes at `a .. a+n-1` become `bytes`, and no other changes. -/
def Memory.writeBytes (m : Memory) (a : Nat) (bytes : List Byte) : Memory :=
  m.filter (fun c => c.1 < a) ++ (Memory.cells a bytes ++ m.filter (fun c => a + bytes.length ≤ c.1))

/-- A single-byte write (R57). -/
def Memory.write (m : Memory) (a : Nat) (b : Byte) : Memory := m.writeBytes a [b]

/-- The canonical form: addresses strictly rising, and no cell equal to what an unlisted address reads as. -/
abbrev Memory.wf (m : Memory) : Prop :=
  m.Pairwise (fun x y => x.1 < y.1) ∧ ∀ c ∈ m, c.2 ≠ Memory.unlisted

/-- Every listed address exists: it is below MEM_SIZE (R50). -/
abbrev Memory.within (m : Memory) (size : Nat) : Prop := ∀ c ∈ m, c.1 < size

def State.readBytes (s : State) (a n : Nat) : List Byte := s.mem.readBytes a n

def State.writeBytes (s : State) (a : Nat) (bytes : List Byte) : State := s.setMem (s.mem.writeBytes a bytes)

/-- The 256 bytes from `a` on as a block (R16). -/
def State.readBlock (s : State) (a : Nat) : Block := fill 256 (s.readBytes a 256)

def State.writeBlock (s : State) (a : Nat) (X : Block) : State := s.writeBytes a X.toList

/-! ### Block operations -/

/-- `X xor K`: byte i is `X[i] xor K[i]` (R16). -/
def Block.xor (X K : Block) : Block := tabulate 256 fun i => X[i] ^^^ K[i]

/-! ### Issue, completion, reset -/

/-- Issue of command word `v`, as one step (R190). The word is not checked here. -/
def State.issue (s : State) (v : Word) : State :=
  (s.setPend v).setStatus { s.status with busy := true, done := false }

/-- The completion actions of R192. PEND is no part of them: DESIGN CHOICE (assumption 2), it keeps the command word
while BUSY = 0, where R36 calls it meaningless and I9 gives it any value; nothing reads it before the next issue. -/
def State.complete (s : State) (c : Code) : State :=
  s.setStatus { s.status with err := c, busy := false, done := true }

/-- `finish(code)`, and `raise E` as `finish(E)` (R17, R192): the command ends here. -/
def finish (c : Code) (s : State) : Result := .next (s.complete c)

/-- The platform's reset input (R210), as one step: every register takes its reset value, buffer memory and the
parameters keep theirs, PEND becomes unspecified: a free value (R36, R210; assumption 2). -/
def State.platformReset (s : State) : State :=
  { State.reset with
    params := s.params
    mem := s.mem
    script := s.script
    seen := s.seen
    pend := Config.freeWord s.params.regBase s.draws
    draws := s.draws + 1 }

end Sys2Proof.Machine
end

