-- ==== Sys2Proof/Machine/Operands.lean ====
section
/-!
DEFINITION. Regions (R54, R55), the region each command accesses (R72), and the lengths of the encoded buffers
that size them (R76 to R80). Lengths and addresses are compared in unbounded integers (R14).
-/
namespace Sys2Proof.Machine

/-- A region: a start address and a length (R54). -/
structure Region where
  addr : Nat
  len : Nat
  deriving DecidableEq, Repr

/-- `valid(a, n)` (R54). -/
abbrev Region.Valid (r : Region) (p : Params) : Prop := r.len = 0 ∨ r.addr + r.len ≤ p.memSize

/-- `overlap((a1, n1), (a2, n2))` (R55). -/
abbrev Region.Overlaps (r q : Region) : Prop :=
  0 < r.len ∧ 0 < q.len ∧ r.addr < q.addr + q.len ∧ q.addr < r.addr + r.len

/-- The address is one the region covers (R54). -/
abbrev Region.Covers (r : Region) (a : Nat) : Prop := r.addr ≤ a ∧ a < r.addr + r.len

/-- `pad = 256 - (n mod 256)` (R76, R146). -/
def padCount (n : Nat) : Nat := blockLen - n % blockLen

/-- The length of the encoded buffer of an n-byte plaintext; 0 for an empty one (R76, R145, R150). -/
def encodedLen (n : Nat) : Nat := if n = 0 then 0 else n + padCount n + (seedHeaderLen + 1)

/-- Version detection by the length modulo 256 (R156). -/
def versionOf (len : Nat) : Option Version :=
  if len % 256 = 32 then some .v1
  else if len % 256 = 33 then some .v2
  else if len % 256 = 5 then some .v3
  else none

/-- The length of the payload of an encoded buffer of length `len` (R80). -/
def payloadLen (v : Version) (len : Nat) : Nat :=
  match v with
  | .v1 => len - ivLen
  | .v2 => len - (ivLen + 1)
  | .v3 => len - (seedHeaderLen + 1)

/-- The table whose inverse permutation a version's blocks take (R160). -/
def inverseTable (p : Params) (v : Version) : Table :=
  match v with
  | .v1 => p.pInv1
  | .v2 => p.pInv2
  | .v3 => p.pInv2

/-- The 256-byte in-place operand at DST_ADDR (R30, R72). -/
def blockOperand (s : State) : Region := ⟨s.dstAddr.toNat, blockLen⟩

/-- The 32-byte operand of KS_IV at SRC_ADDR (R72). -/
def ivOperand (s : State) : Region := ⟨s.srcAddr.toNat, ivLen⟩

/-- The source region of ENCODE and DECODE (R28, R29, R72). -/
def sourceOperand (s : State) : Region := ⟨s.srcAddr.toNat, s.srcLen.toNat⟩

/-- The destination region of ENCODE (R72, R150). -/
def encodeTarget (s : State) : Region := ⟨s.dstAddr.toNat, encodedLen s.srcLen.toNat⟩

/-- The destination region of DECODE for a source of version `v` (R72, R161). -/
def decodeTarget (s : State) (v : Version) : Region := ⟨s.dstAddr.toNat, payloadLen v s.srcLen.toNat⟩

/-- A command on the 256-byte in-place operand: RangeError when it does not fit, before any write (R54, R123, R137).
`f` is what the command makes of the block and of KS. -/
def onBlock (f : Block → Block → Block × Block) (s : State) : Result :=
  let a := (blockOperand s).addr
  if (blockOperand s).Valid s.params then
    let r := f (s.readBlock a) s.ks
    finish .ok ((s.writeBlock a r.1).setKs r.2)
  else finish .rangeError s

end Sys2Proof.Machine
end

