-- ==== Sys2Proof/Machine/Permutation.lean ====
section
/-!
DEFINITION. The Block Permutation engine (43_block_permutation.md): SHUF2, UNSHUF1, UNSHUF2.
-/
namespace Sys2Proof.Machine

/-- `perm(T, X)`: word j of the result is word `T[j]` of the input, its bytes in their order (R121, R52). -/
def perm (T : Table) (X : Block) : Block :=
  tabulate 256 fun i =>
    X[4 * (T[i.val / 4]'(by omega)).val + i.val % 4]'(by have := (T[i.val / 4]'(by omega)).isLt; omega)

/-- One permutation command: the block operand is permuted in place and KS is untouched (R123). -/
def permuteOperand (T : Table) (s : State) : Result := onBlock (fun X K => (perm T X, K)) s

/-- SHUF2 (R123). -/
def execShuf2 (s : State) : Result := permuteOperand s.params.pFwd s

/-- UNSHUF1 (R124). -/
def execUnshuf1 (s : State) : Result := permuteOperand s.params.pInv1 s

/-- UNSHUF2 (R125). -/
def execUnshuf2 (s : State) : Result := permuteOperand s.params.pInv2 s

end Sys2Proof.Machine
end

