-- ==== Sys2Proof/Machine/Chaining.lean ====
section
/-!
DEFINITION. The block chaining steps (44_block_chaining.md): ENC_BLK, DEC_BLK1, DEC_BLK2, and the chains of steps
the pipelines run over a payload (R148, R160).
-/
namespace Sys2Proof.Machine

/-- `tap(C, S)`, the chaining value (R135): the same CHAIN_TAP in encode and decode. -/
def tap (p : Params) (C S : Block) : Block :=
  match p.chainTap with
  | .prePerm => C
  | .postPerm => S

/-- `enc_step(X, K)`: the stored block and the next keystream (R136). -/
def encStep (p : Params) (X K : Block) : Block × Block :=
  let C := Block.xor X K
  let S := perm p.pFwd C
  (S, tap p C S)

/-- `dec_step(T, S, K)`: the recovered block and the next keystream (R136). -/
def decStep (p : Params) (T : Table) (S K : Block) : Block × Block :=
  let C := perm T S
  (Block.xor C K, tap p C S)

/-- `enc_step` over blocks in increasing order, the keystream carried from each to the next (R148, R149). -/
def encChain (p : Params) : List Block → Block → List Block × Block
  | [], K => ([], K)
  | X :: Xs, K =>
    let r := encStep p X K
    let rest := encChain p Xs r.2
    (r.1 :: rest.1, rest.2)

/-- `dec_step` over blocks in increasing order (R160). -/
def decChain (p : Params) (T : Table) : List Block → Block → List Block × Block
  | [], K => ([], K)
  | S :: Ss, K =>
    let r := decStep p T S K
    let rest := decChain p T Ss r.2
    (r.1 :: rest.1, rest.2)

/-- The first `k` blocks of a byte sequence, in increasing offset order (R148). -/
def blocksOf : Nat → List Byte → List Block
  | 0, _ => []
  | k + 1, l => fill 256 l :: blocksOf k (l.drop 256)

/-- Blocks laid end to end. -/
def bytesOf (Xs : List Block) : List Byte := Xs.flatMap (fun X => X.toList)

/-- ENC_BLK (R137). -/
def execEncBlk (s : State) : Result := onBlock (encStep s.params) s

/-- DEC_BLK1 (R138). -/
def execDecBlk1 (s : State) : Result := onBlock (decStep s.params s.params.pInv1) s

/-- DEC_BLK2 (R139). -/
def execDecBlk2 (s : State) : Result := onBlock (decStep s.params s.params.pInv2) s

end Sys2Proof.Machine
end

