-- ==== Sys2Proof/Machine/Keystream.lean ====
section
/-!
DEFINITION. The Keystream Generator (40_keystream_generator.md) and the Block Cipher Builder
(41_block_cipher_builder.md): LCG_NEXT, KS_SEED, KS_IV.
-/
namespace Sys2Proof.Machine

/-- `next_byte(s)`: the output byte, taken from the new seed `s * 0x41C64E6D + 0x3039`, and that seed (R90). The constants
stand on the left of each operation, which is the same value: a literal on the right would be unfolded one by one. -/
def nextByte (s : Word) : Byte × Word :=
  let s' := lcgIncrement + lcgMultiplier * s
  (outputField s', s')

/-- `n` generator bytes in order, and the seed after them (R92, R100). -/
def generate : Nat → Word → List Byte × Word
  | 0, s => ([], s)
  | n + 1, s =>
    let b := nextByte s
    let r := generate n b.2
    (b.1 :: r.1, r.2)

/-- `from_seed(s)` (R100). -/
def fromSeed (s : Word) : Block × Word :=
  let r := generate 256 s
  (fill 256 r.1, r.2)

/-- `from_iv(iv)`: `K[32*row + col] = rotl8(iv[col], row)` (R101). -/
def fromIv (iv : Vector Byte 32) : Block :=
  tabulate 256 fun i => rotl8 (iv[i.val % 32]'(Nat.mod_lt _ (by decide))) (i.val / 32)

/-- LCG_NEXT (R91). -/
def execLcgNext (s : State) : Result :=
  let r := nextByte s.seed
  finish .ok ((s.setSeed r.2).setData r.1)

/-- KS_SEED (R102). -/
def execKsSeed (s : State) : Result :=
  let r := fromSeed s.seed
  finish .ok ((s.setKs r.1).setSeed r.2)

/-- KS_IV (R103). -/
def execKsIv (s : State) : Result :=
  if (ivOperand s).Valid s.params then
    finish .ok (s.setKs (fromIv (fill 32 (s.readBytes (ivOperand s).addr 32))))
  else finish .rangeError s

end Sys2Proof.Machine
end

