-- ==== Sys2Proof/Machine/Marker.lean ====
section
/-!
DEFINITION. The Integrity Marker (42_integrity_marker.md): MARK. The parenthesised expression is normative
(R110, 90_conflicts.md C4).
-/
namespace Sys2Proof.Machine

/-- `marker(b)` (R110). -/
def marker (b : Byte) : Byte :=
  let t := (b ^^^ markFlip) &&& b
  let u := (~~~t &&& markInverted) ||| (t &&& markKept)
  (u ^^^ markMix) ||| (t &&& markAdded)

/-- MARK (R111). -/
def execMark (s : State) : Result := finish .ok (s.setData (marker s.data))

end Sys2Proof.Machine
end

