-- ==== Sys2Proof/Machine/DecodePipeline.lean ====
section
/-!
DEFINITION. The Decode Pipeline (46_decode_pipeline.md): DECODE.
-/
namespace Sys2Proof.Machine

/-- What `decode` returns (R160): `ver` the version, `Y` the decoded payload, `p` the plaintext length, `s` the final
working seed (v3 only), `K` the final chaining value. -/
inductive Decoded where
  | tooShort
  | unknownVersion
  | integrityMismatch
  | corruptPadding (ver : Version) (Y : List Byte) (s : Option Word) (K : Block)
  | ok (ver : Version) (Y : List Byte) (p : Nat) (s : Option Word) (K : Block)
  deriving DecidableEq, Repr

/-- The seed a v3 buffer's header holds (R51, R157). -/
def headerSeed (B : List Byte) : Word := be32 (B.getD 0 0) (B.getD 1 0) (B.getD 2 0) (B.getD 3 0)

/-- The pad count a stored byte stands for (R159, R11). -/
def storedPad (m : Pad0Mode) (q : Byte) : Nat :=
  match m with
  | .zeroIs256 => if q = 0 then 256 else q.toNat
  | .zeroIsCorrupt => q.toNat

/-- The block loop and the pad test of R160, from the payload, its initial keystream and its seed. -/
def decodePayload (p : Params) (ver : Version) (payload : List Byte) (s : Option Word) (K : Block) : Decoded :=
  let m := payload.length
  let r := decChain p (inverseTable p ver) (blocksOf (m / blockLen) payload) K
  let Y := bytesOf r.1
  let pad := storedPad p.pad0Mode (Y.getD (m - 1) 0)
  if pad = 0 ∨ m < pad then .corruptPadding ver Y s r.2
  else .ok ver Y (m - pad) s r.2

/-- `decode(B)` (R160). -/
def decodeBuffer (p : Params) (B : List Byte) : Decoded :=
  let L := B.length
  if L < minDecodeLen then .tooShort
  else
    match versionOf L with
    | none => .unknownVersion
    | some .v1 => decodePayload p .v1 (slice B ivLen L) none (fromIv (fill 32 B))
    | some .v2 => decodePayload p .v2 (slice B ivLen (L - 1)) none (fromIv (fill 32 B))
    | some .v3 =>
      let k := fromSeed (headerSeed B)
      let m := nextByte k.2
      if B.getD (L - 1) 0 ≠ marker m.1 then .integrityMismatch
      else decodePayload p .v3 (slice B seedHeaderLen (L - 1)) (some m.2) k.1

/-- `if ver = 3: reg[SEED] <- s` (R161): the working seed is present for v3 alone. -/
def State.setWorkingSeed (s : State) : Option Word → State
  | none => s
  | some v => s.setSeed v

/-- The end of DECODE, from what `decode` returned (R161). The first two results do not occur here: the checks
before it have excluded them. -/
def finishDecode (s : State) (d : Nat) : Decoded → Result
  | .tooShort => finish .tooShort s
  | .unknownVersion => finish .unknownVersion s
  | .integrityMismatch => finish .integrityMismatch s
  | .corruptPadding _ Y w K => finish .corruptPadding (((s.writeBytes d Y).setKs K).setWorkingSeed w)
  | .ok _ Y n w K =>
    finish .ok ((((s.writeBytes d Y).setKs K).setWorkingSeed w).setDstLen (BitVec.ofNat 32 n))

/-- DECODE (R161). -/
def execDecode (s : State) : Result :=
  let s := (s.setDstLen 0).setVer none
  let src := sourceOperand s
  if ¬ src.Valid s.params then finish .rangeError s
  else if src.len < minDecodeLen then finish .tooShort s
  else
    match versionOf src.len with
    | none => finish .unknownVersion s
    | some ver =>
      let s := s.setVer (some ver)
      let dst := decodeTarget s ver
      if ¬ dst.Valid s.params then finish .rangeError s
      else if src.Overlaps dst then finish .overlapError s
      else finishDecode s dst.addr (decodeBuffer s.params (s.readBytes src.addr src.len))

end Sys2Proof.Machine
end

