-- ==== Sys2Proof/Machine/EncodePipeline.lean ====
section
/-!
DEFINITION. The Encode Pipeline (45_encode_pipeline.md): ENCODE.
-/
namespace Sys2Proof.Machine

/-- What `encode` returns: the encoded buffer E, the seed s_end and the chaining value K_end (R149). -/
structure Encoded where
  bytes : List Byte
  seed : Word
  ks : Block
  deriving DecidableEq, Repr

/-- The payload before the transform: P, then `pad - 1` zero bytes, then the byte `pad mod 256` (R76, R146, R149). -/
def paddedPayload (P : List Byte) : List Byte :=
  P ++ (List.replicate (padCount P.length - 1) 0 ++ [BitVec.ofNat 8 (padCount P.length)])

/-- `encode(P, s0)` for a plaintext of length 1 or more (R149). -/
def encodeBuffer (p : Params) (P : List Byte) (s0 : Word) : Encoded :=
  let k := fromSeed s0
  let m := nextByte k.2
  let r := encChain p (blocksOf ((P.length + padCount P.length) / blockLen) (paddedPayload P)) k.1
  { bytes := be32Bytes s0 ++ (bytesOf r.1 ++ [marker m.1])
    seed := m.2
    ks := r.2 }

/-- ENCODE (R150). -/
def execEncode (s : State) : Result :=
  let s := s.setDstLen 0
  let src := sourceOperand s
  let dst := encodeTarget s
  if ¬ src.Valid s.params then finish .rangeError s
  else if ¬ dst.Valid s.params then finish .rangeError s
  else if src.Overlaps dst then finish .overlapError s
  else if src.len = 0 then finish .ok s
  else
    let e := encodeBuffer s.params (s.readBytes src.addr src.len) s.seed
    finish .ok ((((s.writeBytes dst.addr e.bytes).setSeed e.seed).setKs e.ks).setDstLen (BitVec.ofNat 32 dst.len))

end Sys2Proof.Machine
end

