-- ==== Sys2Proof/Machine/Dispatch.lean ====
section
/-!
DEFINITION. One arm per command: what the completion step does with it (R191).
-/
namespace Sys2Proof.Machine

def exec (i : Instr) (s : State) : Host.Outcome State Fault Refusal :=
  match i with
  | .lcgNext => Sys2Proof.Machine.execLcgNext s
  | .ksSeed => Sys2Proof.Machine.execKsSeed s
  | .ksIv => Sys2Proof.Machine.execKsIv s
  | .mark => Sys2Proof.Machine.execMark s
  | .shuf2 => Sys2Proof.Machine.execShuf2 s
  | .unshuf1 => Sys2Proof.Machine.execUnshuf1 s
  | .unshuf2 => Sys2Proof.Machine.execUnshuf2 s
  | .encBlk => Sys2Proof.Machine.execEncBlk s
  | .decBlk1 => Sys2Proof.Machine.execDecBlk1 s
  | .decBlk2 => Sys2Proof.Machine.execDecBlk2 s
  | .encode => Sys2Proof.Machine.execEncode s
  | .decode => Sys2Proof.Machine.execDecode s

end Sys2Proof.Machine
end

