-- ==== Sys2Proof/Machine/Flags.lean ====
section
/-!
DEFINITION. The status fields as software sees them: STATUS, CTRL and CFG as 32-bit words (R25, R26, R34), the
numbers of the completion codes and versions (R185, R25), write-1-to-clear (R25), and the interrupt output (R38, R194).
-/
namespace Sys2Proof.Machine

/-- The number of a completion code (R185). -/
def Code.num : Code → BitVec 4
  | .ok => 0
  | .tooShort => 1
  | .unknownVersion => 2
  | .integrityMismatch => 3
  | .corruptPadding => 4
  | .rangeError => 5
  | .overlapError => 6
  | .illegalCommand => 7

/-- The VER field (R25): 0 none, 1 v1, 2 v2, 3 v3. -/
def verField : Option Version → BitVec 2
  | none => 0
  | some .v1 => 1
  | some .v2 => 2
  | some .v3 => 3

/-- STATUS as a word (R25): VER [9:8], ERR [7:4], a reserved 0 in [3], OVR [2], DONE [1], BUSY [0], 0 above. -/
def Status.word (t : Status) : Word :=
  (0 : BitVec 22) ++ verField t.ver ++ t.err.num ++ (0 : BitVec 1)
    ++ BitVec.ofBool t.ovr ++ BitVec.ofBool t.done ++ BitVec.ofBool t.busy

/-- A host write of `v` to STATUS (R25): writing 1 clears DONE or OVR; 0 leaves it; the rest is read-only. -/
def Status.writeOneToClear (t : Status) (v : Word) : Status :=
  { t with done := t.done && !v.getLsbD 1, ovr := t.ovr && !v.getLsbD 2 }

/-- CTRL as a word (R26): IE in bit 0, 0 above. -/
def ctrlWord (ie : Bool) : Word := (0 : BitVec 31) ++ BitVec.ofBool ie

/-- `PERM_PLACEHOLDER`: 1 exactly when the three tables are the identity (R34). -/
def Params.permPlaceholder (p : Params) : Bool :=
  p.pFwd.toList = Table.identity.toList && p.pInv1.toList = Table.identity.toList
    && p.pInv2.toList = Table.identity.toList

/-- CFG as a word (R34): PERM_PLACEHOLDER [2], PAD0_MODE [1], CHAIN_TAP [0], 0 above. -/
def cfgWord (p : Params) : Word :=
  (0 : BitVec 29) ++ BitVec.ofBool (Params.permPlaceholder p) ++ BitVec.ofBool (p.pad0Mode = .zeroIsCorrupt)
    ++ BitVec.ofBool (p.chainTap = .postPerm)

/-- The interrupt output, a level (R38, R194). -/
def State.irq (s : State) : Bool := s.status.done && s.ie

end Sys2Proof.Machine
end

