-- ==== Sys2Proof/Machine/HostBus.lean ====
section
/-!
DEFINITION. The register window (R23 to R35) and the host agent's accesses to it and to buffer memory (R57, R58),
with the busy rules (R213 to R215).
-/
namespace Sys2Proof.Machine

/-- The offset of each register (R23). -/
def Reg.offset : Reg → Nat
  | .cmd => 0x000
  | .status => 0x004
  | .ctrl => 0x008
  | .seed => 0x00C
  | .srcAddr => 0x010
  | .srcLen => 0x014
  | .dstAddr => 0x018
  | .dstLen => 0x01C
  | .data => 0x020
  | .id => 0x024
  | .cfg => 0x028
  | .reserved i => 0x02C + 4 * i.val
  | .ksw i => 0x100 + 4 * i.val

/-- The register a host access of `width` bits at `offset` reaches; `none` outside the interface (R23, R57). -/
def Reg.at (width offset : Nat) : Option Reg :=
  if width ≠ 32 ∨ offset % 4 ≠ 0 ∨ 0x200 ≤ offset then none
  else if 0x100 ≤ offset then some (.ksw (Fin.ofNat 64 ((offset - 0x100) / 4)))
  else if 0x02C ≤ offset then some (.reserved (Fin.ofNat 53 ((offset - 0x02C) / 4)))
  else [Reg.cmd, .status, .ctrl, .seed, .srcAddr, .srcLen, .dstAddr, .dstLen, .data, .id, .cfg][offset / 4]?

/-- `KSW[i]`: bytes `4i .. 4i+3` of KS, packed little-endian (R35). -/
def kswWord (K : Block) (i : Fin 64) : Word :=
  K[4 * i.val + 3] ++ K[4 * i.val + 2] ++ K[4 * i.val + 1] ++ K[4 * i.val]

/-- A write of `v` to `KSW[i]` sets `KS[4i+k] <- v[8k+7:8k]` for k = 0..3 (R35). -/
def setKsw (K : Block) (i : Fin 64) (v : Word) : Block :=
  tabulate 256 fun j => if j.val / 4 = i.val then v.extractLsb' (8 * (j.val % 4)) 8 else K[j]

/-- The rule value of a register (R23 to R35): what a host read returns unless R215 makes it a draw. -/
def State.regValue (s : State) : Reg → Word
  | .cmd => 0
  | .status => s.status.word
  | .ctrl => ctrlWord s.ie
  | .seed => s.seed
  | .srcAddr => s.srcAddr
  | .srcLen => s.srcLen
  | .dstAddr => s.dstAddr
  | .dstLen => s.dstLen
  | .data => s.data.setWidth 32
  | .id => idValue
  | .cfg => cfgWord s.params
  | .reserved _ => 0
  | .ksw i => kswWord s.ks i

/-- The registers whose reads while BUSY = 1 return any value (R215). -/
def Reg.openWhileBusy : Reg → Bool
  | .seed | .data | .dstLen | .ksw _ => true
  | .cmd | .status | .ctrl | .srcAddr | .srcLen | .dstAddr | .id | .cfg | .reserved _ => false

/-- The registers whose writes while BUSY = 1 are dropped and set OVR (R213). -/
def Reg.lockedWhileBusy : Reg → Bool
  | .cmd | .seed | .srcAddr | .srcLen | .dstAddr | .data | .ksw _ => true
  | .status | .ctrl | .dstLen | .id | .cfg | .reserved _ => false

/-- A host read returned `x`. -/
def State.saw (s : State) (x : Seen) : State := s.setSeen (s.seen ++ [x])

/-- A host read of a register (R58, R215): no effect on the block; a draw where R215 says any value. -/
def State.hostReadReg (s : State) (r : Reg) : State :=
  if s.status.busy && r.openWhileBusy then (s.saw (.reg r.offset (Config.freeWord s.params.regBase s.draws))).drawn
  else s.saw (.reg r.offset (s.regValue r))

/-- A host write of `v` to a register while it is accepted (R24 to R35). -/
def State.acceptWrite (s : State) (v : Word) : Reg → State
  | .cmd => s.issue v
  | .status => s.setStatus (s.status.writeOneToClear v)
  | .ctrl => s.setIe (v.getLsbD 0)
  | .seed => s.setSeed v
  | .srcAddr => s.setSrcAddr v
  | .srcLen => s.setSrcLen v
  | .dstAddr => s.setDstAddr v
  | .data => s.setData (v.extractLsb' 0 8)
  | .ksw i => s.setKs (setKsw s.ks i v)
  | .dstLen | .id | .cfg | .reserved _ => s

/-- A host write of `v` to a register, with the busy rule R213. -/
def State.hostWriteReg (s : State) (r : Reg) (v : Word) : State :=
  if s.status.busy && r.lockedWhileBusy then s.setStatus { s.status with ovr := true }
  else s.acceptWrite v r

/-- A host read of a buffer byte (R58); while BUSY = 1 it returns any value (R214). -/
def State.hostReadByte (s : State) (a : Nat) : State :=
  if s.status.busy then (s.saw (.byte a (Config.freeByte s.params.regBase s.draws))).drawn
  else s.saw (.byte a (s.mem.read a))

/-- The host's buffer accesses are single bytes below MEM_SIZE (R57; other widths: assumption 8). -/
abbrev bufferAccessOk (p : Params) (width a : Nat) : Prop := width = 8 ∧ a < p.memSize

/-- One access of the outside world (R57, R196, R210, R213 to R215). -/
def State.access (s : State) : Access → Result
  | .readReg width offset =>
    match Reg.at width offset with
    | some r => .next (s.hostReadReg r)
    | none => .refused (.registerAccess width offset)
  | .writeReg width offset v =>
    match Reg.at width offset with
    | some r => .next (s.hostWriteReg r v)
    | none => .refused (.registerAccess width offset)
  | .readMem width a =>
    if bufferAccessOk s.params width a then .next (s.hostReadByte a) else .refused (.bufferAccess width a)
  | .writeMem width a b =>
    if ¬ bufferAccessOk s.params width a then .refused (.bufferAccess width a)
    else if s.status.busy then .refused (.bufferWriteWhileBusy a)
    else .next (s.setMem (s.mem.write a b))
  | .wait => .next s
  | .reset => .next s.platformReset

end Sys2Proof.Machine
end

