-- ==== Sys2Proof/Machine/Sequencer.lean ====
section
/-!
DEFINITION. Who moves next, the core's completion step (R191) and the host's next access (R196). Where both a busy
core and the host can move, the spec fixes no order (R191, R211, T23): the choice is a free value (assumption 5).
-/
namespace Sys2Proof.Machine

/-- Who takes the next step. -/
inductive Turn where
  /-- BUSY = 0 and no access is left: an idle block keeps all state (R204). -/
  | idle
  | core
  | host (a : Access) (rest : List Access)
  deriving DecidableEq, Repr

/-- The core and the host's next access could both come first: the core is busy and the host is not waiting for it. -/
def State.contended (s : State) : Bool :=
  match s.script with
  | [] => false
  | .wait :: _ => false
  | _ :: _ => s.status.busy

/-- Whose step it is. The core's step is enabled exactly when BUSY = 1 (R191); a waiting host moves when BUSY = 0
(R75); the core moves at the latest when the host has nothing else to do (R218: a finite delay). -/
def State.turn (s : State) : Turn :=
  match s.script with
  | [] => if s.status.busy then .core else .idle
  | a :: rest =>
    if s.status.busy then
      if a = .wait then .core
      else if Config.coreMovesFirst s.params.regBase s.draws then .core
      else .host a rest
    else .host a rest

/-- The state the chosen agent steps from: a free choice has been used where one was made. -/
def State.scheduled (s : State) : State := if s.contended then s.drawn else s

/-- The core's completion step (R191): it performs the command in PEND; an illegal word ends with code 7 and only the
completion actions (R73, R192). -/
def State.completionStep (s : State) : Result :=
  match Sys2Proof.decode s.pend with
  | .ok i => exec i s
  | .error _ => finish .illegalCommand s

/-- One step of the block and the world around it. -/
def State.advance (s : State) : Result :=
  match s.turn with
  | .idle => .next s
  | .core => s.scheduled.completionStep
  | .host a rest => (s.scheduled.setScript rest).access a

/-- A command word put where the next completion step takes it, with the command in flight and no access of the host
before it (R190, R191). -/
def State.placeCommand (s : State) (w : Word) : State :=
  ((s.setPend w).setStatus { s.status with busy := true }).setScript []

end Sys2Proof.Machine
end

