-- ==== Sys2Proof/Machine/Step.lean ====
section
/-!
DEFINITION. One step of the machine, and the placing of a command word where the next step performs it.
-/
namespace Sys2Proof.Machine

/-- One step: the core's completion step or the host's next access (R191, R196). -/
def step (s : State) : Host.Outcome State Fault Refusal := s.advance

/-- `s` with the command word numbered `w` (its first `nbits` bits; those above are 0) in flight, so that the very next
step performs it. A command comes from the host's CMD write, never from memory (R22, R64; assumption 7). -/
def State.withFetchWord (s : State) (nbits w : Nat) : State := s.placeCommand (BitVec.ofNat 32 (w % 2 ^ nbits))

end Sys2Proof.Machine
end

