-- ==== Sys2Proof/Machine/Platform.lean ====
section
/-!
DEFINITION. The platform: NUM_INSTANCES independent copies of the block (R9, R205), each with its own register window
at its REG_BASE (R23, R59). Which instance moves next is an argument: they run independently (assumption 10).
-/
namespace Sys2Proof.Machine

/-- The instances of a platform; NUM_INSTANCES is the length (R9). -/
structure Platform where
  instances : List State
  deriving DecidableEq, Repr

/-- The platforms the spec allows: NUM_INSTANCES is at least 1 (R9), the parameters of every instance are legal, and
each instance has a window of its own, so no two have the same REG_BASE (R205; the windows are 512 bytes, aligned: R59).
DEDUCED (assumption 10): R205 gives each its own window, from which the model reads that windows do not overlap. -/
structure Platform.Ok (P : Platform) : Prop where
  numInstances : 1 ≤ P.instances.length
  params : ∀ s ∈ P.instances, s.params.Ok
  windows : (P.instances.map fun s => s.params.regBase).Nodup

/-- Instances start together at reset (R205), each with its own parameters. -/
def Platform.reset (ps : List Params) : Platform := ⟨ps.map fun p => { State.reset with params := p }⟩

/-- The platform's reset input reaches every instance at once (R205, R210). -/
def Platform.resetAll (P : Platform) : Platform := ⟨P.instances.map State.platformReset⟩

/-- Instance `k` takes its next step; the others keep their state (R205). DESIGN CHOICE (assumption 10): that step may be
a `.reset` of its own script, which resets instance `k` alone; R205 says that instances start together at reset and leaves
open whether a reset during a run can reach one alone, and `Platform.resetAll` is the reset that reaches all. The free
values and orders of two instances are unrelated (R211; assumptions 4, 5): each is named by its instance's REG_BASE. -/
def Platform.stepAt (P : Platform) (k : Nat) : Host.Outcome Platform Fault Refusal :=
  match P.instances[k]? with
  | none => .next P
  | some s =>
    match step s with
    | .next t => .next ⟨P.instances.set k t⟩
    | .fault r => .fault r
    | .refused r => .refused r

/-- Whether `addr` lies in the 512-byte window of an instance with parameters `p` (R23, R59). -/
abbrev Params.windowHolds (p : Params) (addr : Nat) : Prop := p.regBase ≤ addr ∧ addr < p.regBase + 0x200

/-- The instance whose register window a platform address falls in, and the offset there (R59, R205). -/
def Platform.locate (P : Platform) (addr : Nat) : Option (Nat × Nat) :=
  (P.instances.zipIdx.find? fun x => decide (Params.windowHolds x.1.params addr)).map
    fun x => (x.2, addr - x.1.params.regBase)

end Sys2Proof.Machine
end

