-- ==== Sys2Proof/Machine/Script.lean ====
section
/-!
DEFINITION. The host script syntax (R74) and its pseudo-statements (R75), each as the accesses it stands for.
-/
namespace Sys2Proof.Machine

/-- `WR <reg>, <v>` (R74). -/
def Script.wr (r : Reg) (v : Word) : List Access := [.writeReg 32 r.offset v]

/-- `RD <reg>` (R74). -/
def Script.rd (r : Reg) : List Access := [.readReg 32 r.offset]

/-- `MWB <addr>, <b0> <b1> ...` (R74). -/
def Script.mwb (a : Nat) (bytes : List Byte) : List Access :=
  (bytes.zipIdx a).map fun x => .writeMem 8 x.2 x.1

/-- `MRB <addr>, <n>` (R74). -/
def Script.mrb (a n : Nat) : List Access := (List.range' a n).map (.readMem 8)

/-- `<MNEMONIC>` alone is `WR CMD, <its command word>` (R74). -/
def Script.command (i : Instr) : List Access := Script.wr .cmd (Sys2Proof.encode i)

/-- `WAIT` (R75). -/
def Script.waitIdle : List Access := [.wait]

/-- `RUN <MNEMONIC>` (R75). -/
def Script.run (i : Instr) : List Access := Script.command i ++ Script.waitIdle

/-- `CLRST` (R75). -/
def Script.clrst : List Access := Script.wr .status 0x00000006

/-- `LDKS <b0> .. <b255>` (R75). -/
def Script.ldks (K : Block) : List Access :=
  (List.finRange 64).flatMap fun i => Script.wr (.ksw i) (kswWord K i)

end Sys2Proof.Machine
end

