-- ==== Sys2Proof/Safety.lean ====
section
/-!
DEFINITION. What claims are stated in: the invariant of an instance, the end of a run (R198), what every command leaves
unchanged (R39), and the spec's own arithmetic for the generator and the payloads, written apart from the model's
functions so that a statement compares the two.
-/
namespace Sys2Proof.Machine

/-- The invariant of an instance. -/
structure State.Inv (s : State) : Prop where
  /-- the parameters are ones the spec allows (R8, R13, R59) -/
  params : s.params.Ok
  /-- memory is in its canonical form -/
  mem : s.mem.wf
  /-- no byte is stored at an address that does not exist (R50, R54) -/
  within : s.mem.within s.params.memSize
  /-- DONE is cleared at issue and set at completion, which clears BUSY (R190, R192) -/
  notDoneWhileBusy : s.status.busy = true → s.status.done = false
  /-- DST_LEN never exceeds the memory (R31, R150, R161) -/
  dstLen : s.dstLen.toNat ≤ s.params.memSize

/-- A run has ended: the host has made its last access and BUSY = 0 (R198). -/
abbrev State.RunOver (s : State) : Prop := s.script = [] ∧ s.status.busy = false

/-- What no command writes (R24 to R30, R39): the parameters, CTRL, the operand registers, the latch, OVR, and the
model's own fields. That PEND keeps its word after the completion is the model's choice (assumption 2; I9). -/
structure State.KeepsOperands (s t : State) : Prop where
  params : t.params = s.params
  ie : t.ie = s.ie
  srcAddr : t.srcAddr = s.srcAddr
  srcLen : t.srcLen = s.srcLen
  dstAddr : t.dstAddr = s.dstAddr
  pend : t.pend = s.pend
  ovr : t.status.ovr = s.status.ovr
  script : t.script = s.script
  seen : t.seen = s.seen
  draws : t.draws = s.draws

/-- Every byte outside the region reads as before. -/
abbrev State.KeepsMemoryOutside (s t : State) (r : Region) : Prop :=
  ∀ a, ¬ r.Covers a → t.mem.read a = s.mem.read a

/-- Every byte of memory reads as before. -/
abbrev State.KeepsMemory (s t : State) : Prop := ∀ a, t.mem.read a = s.mem.read a

/-- STATUS at a completion with code `c` and VER field `v`, OVR kept (R192). -/
abbrev State.CompletedWith (s t : State) (c : Code) (v : Option Version) : Prop :=
  t.status = { busy := false, done := true, ovr := s.status.ovr, err := c, ver := v }

/-- The generator's seed after `n` steps from `s`, in integers: `(s * 0x41C64E6D + 0x3039) mod 2^32` each time (R90). -/
def seedAfter (s : Word) (n : Nat) : Nat := (fun x => (x * 0x41C64E6D + 0x3039) % 2 ^ 32)^[n] s.toNat

/-- The output byte of generator step `n`, counted from 1: bits 23 to 16 of the new seed (R90). -/
def generatorByte (s : Word) (n : Nat) : Nat := seedAfter s n / 2 ^ 16 % 256

/-- Byte `i` of the 256 generator bytes from seed `s` is that of step `i + 1` (R100). -/
abbrev IsSeedKeystream (s : Word) (K : Block) : Prop :=
  ∀ i (h : i < 256), K[i].toNat = generatorByte s (i + 1)

/-- Row `row`, column `col` is IV byte `col` rotated left by `row` bits within 8; the IV lies at `a` (R101). -/
abbrev IsIvKeystream (s : State) (a : Nat) (K : Block) : Prop :=
  ∀ row col (hr : row < 8) (hc : col < 32), K[32 * row + col] = (s.mem.read (a + col)).rotateLeft row

/-- The bits of a register that a host write sets, CMD and STATUS apart (R26 to R35). -/
def Reg.writable : Reg → Word
  | .seed | .srcAddr | .srcLen | .dstAddr | .ksw _ => 0xFFFFFFFF
  | .data => 0x000000FF
  | .ctrl => 0x00000001
  | .cmd | .status | .dstLen | .id | .cfg | .reserved _ => 0

/-- The marker of a byte, in its closed form (R112). -/
abbrev closedMarker (b : Byte) : Byte := (b &&& 0xF3) ||| 0x08

/-- Byte `q` of the padded payload of the `n` plaintext bytes at `a` (R76): the plaintext, then zeros, then in the last
place the pad count modulo 256. -/
def paddedByte (s : State) (a n q : Nat) : Byte :=
  if q < n then s.mem.read (a + q)
  else if q + 1 = 256 * (n / 256 + 1) then BitVec.ofNat 8 (256 - n % 256)
  else 0

/-- `t` holds at `d` the chained encoding of the padded payload of the `n` bytes that `s` holds at `a`, with the
keystreams `K 0, K 1, ...` of the blocks (R136, R148, R149). -/
structure EncodesPayload (s t : State) (a n d : Nat) (K : Nat → Block) : Prop where
  /-- stored word j of block k is word `P_FWD[j]` of the XOR of the payload with the block's keystream -/
  stored : ∀ k j w (_ : k < n / 256 + 1) (hj : j < 64) (hw : w < 4),
    t.mem.read (d + 256 * k + (4 * j + w)) =
      paddedByte s a n (256 * k + (4 * s.params.pFwd[j].val + w)) ^^^
        (K k)[4 * s.params.pFwd[j].val + w]'(by have := s.params.pFwd[j].isLt; omega)
  /-- the next keystream is the XORed block, or its stored form, as CHAIN_TAP says -/
  chained : ∀ k i (_ : k < n / 256 + 1) (hi : i < 256),
    (K (k + 1))[i] =
      match s.params.chainTap with
      | .prePerm => paddedByte s a n (256 * k + i) ^^^ (K k)[i]
      | .postPerm => t.mem.read (d + 256 * k + i)
  ks : t.ks = K (n / 256 + 1)

/-- `t` holds at `d` the chained decoding, by table `T`, of the `m` stored bytes that `s` holds at `a`, with the
keystreams `K 0, K 1, ...` of the blocks (R136, R160). -/
structure DecodesPayload (s t : State) (T : Table) (a m d : Nat) (K : Nat → Block) : Prop where
  /-- word j of recovered block k is word `T[j]` of the stored block, XORed with the block's keystream -/
  recovered : ∀ k j w (_ : k < m / 256) (hj : j < 64) (hw : w < 4),
    t.mem.read (d + 256 * k + (4 * j + w)) =
      s.mem.read (a + 256 * k + (4 * T[j].val + w)) ^^^ (K k)[4 * j + w]
  /-- the next keystream is the unpermuted block, or its stored form, as CHAIN_TAP says -/
  chained : ∀ k j w (_ : k < m / 256) (hj : j < 64) (hw : w < 4),
    (K (k + 1))[4 * j + w] =
      match s.params.chainTap with
      | .prePerm => s.mem.read (a + 256 * k + (4 * T[j].val + w))
      | .postPerm => s.mem.read (a + 256 * k + (4 * j + w))
  ks : t.ks = K (m / 256)

/-- The pad count that the last of the `m` decoded bytes at `d` stands for (R159, R11). -/
def padCountAt (t : State) (d m : Nat) : Nat :=
  let q := t.mem.read (d + m - 1)
  if q = 0 ∧ t.params.pad0Mode = .zeroIs256 then 256 else q.toNat

/-- How DECODE ends once the payload is decoded into `t`: CorruptPadding, or OK with the plaintext's length (R159, R161). -/
abbrev PadOutcome (s t : State) (v : Version) (d m : Nat) : Prop :=
  if padCountAt t d m = 0 ∨ m < padCountAt t d m then
    State.CompletedWith s t .corruptPadding (some v) ∧ t.dstLen = 0
  else State.CompletedWith s t .ok (some v) ∧ t.dstLen.toNat = m - padCountAt t d m

end Sys2Proof.Machine
end

