-- ==== Sys2Proof/Certificates/Slice0/Obligations.lean ====
section
/-!
DEFINITION. The statements for the provers, from the spec's numbered rules. Each says what the machine does over every
state, and so over every choice of the parameters.
-/

open Sys2Proof Sys2Proof.Machine

/-! ### The command word -/

/-- R71: words of the opcode map, written out, select their commands. -/
def Obligations.CommandWordsDecodeAsTheOpcodeMapSays : Prop :=
  decode 0x00000001 = .ok .lcgNext ∧ decode 0x00000002 = .ok .ksSeed ∧ decode 0x00000003 = .ok .ksIv ∧
  decode 0x00000004 = .ok .mark ∧ decode 0x00000005 = .ok .shuf2 ∧ decode 0x00000006 = .ok .unshuf1 ∧
  decode 0x00000007 = .ok .unshuf2 ∧ decode 0x00000008 = .ok .encBlk ∧ decode 0x00000009 = .ok .decBlk1 ∧
  decode 0x0000000A = .ok .decBlk2 ∧ decode 0x00000010 = .ok .encode ∧ decode 0x00000011 = .ok .decode

/-- R70, R71: decode undoes encode, no other word decodes to a command, and the command words are the twelve of the map. -/
def Obligations.EncodeAndDecodeAgreeOnEveryWord : Prop :=
  (∀ i, i.wf = true → decode (encode i) = .ok i) ∧
  (∀ w i, decode w = .ok i → w = encode i) ∧
  (∀ w : Word, (∃ i, decode w = .ok i) ↔ w.toNat ∈ [1, 2, 3, 4, 5, 6, 7, 8, 9, 10, 16, 17])

/-- R73: every other word is rejected, by its reserved field or else by its opcode. -/
def Obligations.EveryOtherWordIsRejectedByName : Prop :=
  ∀ w : Word,
    (256 ≤ w.toNat → decode w = .error (.reservedBits (w.extractLsb' 8 24))) ∧
    (w.toNat < 256 → w.toNat ∉ [1, 2, 3, 4, 5, 6, 7, 8, 9, 10, 16, 17] →
      decode w = .error (.unassignedOpcode (w.setWidth 8)))

/-- R73: the completion of an illegal word ends with IllegalCommand and writes nothing but STATUS. That the step is that
completion when the host has no access left or waits is the model's rule for whose turn it is (assumption 5; R75, R191). -/
def Obligations.IllegalWordCompletionWritesOnlyStatus : Prop :=
  ∀ s : State, s.pend.toNat ∉ [1, 2, 3, 4, 5, 6, 7, 8, 9, 10, 16, 17] →
    s.completionStep = .next (s.setStatus
      { busy := false, done := true, ovr := s.status.ovr, err := .illegalCommand, ver := s.status.ver }) ∧
    (s.status.busy = true → (s.script = [] ∨ s.script.head? = some .wait) → step s = s.completionStep)

/-! ### The step -/

/-- R191: the completion step performs the command in PEND. Whose turn it is, the count of free choices, and that the core
moves when the host has no access left or waits are the model's (assumption 5). So is `withFetchWord`, which stands for an
issue just made but leaves DONE as it is, where R190 clears it (assumption 7). -/
def Obligations.StepRunsTheDecodedCommand : Prop :=
  ∀ (s : State) (i : Instr),
    (decode s.pend = .ok i → s.turn = .core → step s = exec i s.scheduled) ∧
    (decode s.pend = .ok i → s.status.busy = true → (s.script = [] ∨ s.script.head? = some .wait) → step s = exec i s) ∧
    (s.scheduled = s ∨ s.scheduled = s.setDraws (s.draws + 1)) ∧
    step (s.withFetchWord 32 (encode i).toNat) = exec i (s.placeCommand (encode i))

/-- R191: the completion step is enabled exactly when BUSY = 1. Which agent moves is the model's (assumption 5, from R75,
R191, R211 and R218): the core of a busy block at once when the host has no access left or waits; otherwise a free choice,
`Config.coreMovesFirst` of the instance's REG_BASE and draws, decides between it and the host's access. -/
def Obligations.CompletionStepIsEnabledExactlyWhileBusy : Prop :=
  ∀ s : State,
    (s.status.busy = false → s.turn ≠ .core) ∧
    (s.status.busy = true → (s.script = [] ∨ s.script.head? = some .wait) → step s = s.completionStep) ∧
    (s.status.busy = true → ∀ a rest, s.script = a :: rest → a ≠ .wait →
      step s = if Config.coreMovesFirst s.params.regBase s.draws then s.drawn.completionStep
        else (s.drawn.setScript rest).access a)

/-- R204: an idle block keeps all state; that the machine still takes such a step is the model's (assumption 9). -/
def Obligations.IdleBlockKeepsAllState : Prop :=
  ∀ s : State, s.RunOver → step s = .next s

/-- R191, R218: with n reads of STATUS still to make and nothing else, a busy block's command ends, whatever the free
choices are. The bound n + 1 is the model's: the core moves at the latest when no access is left (assumption 5). Nothing is
said of what the reads return. -/
def Obligations.CommandEndsInBoundedStepsUnderPolling : Prop :=
  ∀ (n : Nat) (s : State), s.status.busy = true → s.script = List.replicate n (.readReg 32 0x004) →
    ∃ k ≤ n + 1, ∃ t : State, core.run k s = .next t ∧ t.status.busy = false ∧ t.status.done = true

/-- R75, R190, R191: `RUN <MNEMONIC>` on an idle block issues the command, performs it and waits for its end. That this
takes exactly three steps and records no read is the model's: the core moves when the host waits (assumption 5), and WAIT is
one blocking step that reads nothing (assumption 13). -/
def Obligations.RunStatementPerformsTheCommand : Prop :=
  ∀ (s : State) (i : Instr) (rest : List Access), s.status.busy = false → s.script = Script.run i ++ rest →
    ∃ t : State, exec i ((s.setScript (.wait :: rest)).issue (encode i)) = .next t ∧
      core.run 3 s = .next (t.setScript rest)

/-- R191, R192: every command, in every state, ends with its completion actions. -/
def Obligations.EveryCommandCompletes : Prop :=
  ∀ (i : Instr) (s : State), ∃ t, exec i s = .next t ∧ t.status.busy = false ∧ t.status.done = true ∧
    t.irq = s.ie

/-! ### The generator and the builder -/

/-- R90, R91: LCG_NEXT. -/
def Obligations.LcgNextAdvancesSeedAndOutputsItsByte : Prop :=
  ∀ s : State, ∃ t, exec .lcgNext s = .next t ∧
    t.seed.toNat = (s.seed.toNat * 0x41C64E6D + 0x3039) % 2 ^ 32 ∧
    t.data.toNat = t.seed.toNat / 2 ^ 16 % 256 ∧
    State.CompletedWith s t .ok s.status.ver

/-- R100, R102: KS_SEED. -/
def Obligations.KsSeedFillsKsFromTheGenerator : Prop :=
  ∀ s : State, ∃ t, exec .ksSeed s = .next t ∧
    IsSeedKeystream s.seed t.ks ∧ t.seed.toNat = seedAfter s.seed 256 ∧
    State.CompletedWith s t .ok s.status.ver

/-- R101, R103: KS_IV on a region inside memory. -/
def Obligations.KsIvFillsKsFromTheIv : Prop :=
  ∀ s : State, s.srcAddr.toNat + 32 ≤ s.params.memSize → ∃ t, exec .ksIv s = .next t ∧
    IsIvKeystream s s.srcAddr.toNat t.ks ∧ State.CompletedWith s t .ok s.status.ver

/-- R54, R103, R123, R137, R187: the commands on one fixed-size region end with RangeError when it does not fit, and write
nothing but STATUS. -/
def Obligations.RangeErrorOfOneRegionCommandsWritesOnlyStatus : Prop :=
  ∀ s : State,
    (s.params.memSize < s.srcAddr.toNat + 32 → exec .ksIv s = .next (s.complete .rangeError)) ∧
    (s.params.memSize < s.dstAddr.toNat + 256 →
      ∀ i ∈ [Instr.shuf2, .unshuf1, .unshuf2, .encBlk, .decBlk1, .decBlk2],
        exec i s = .next (s.complete .rangeError))

/-! ### The marker -/

/-- R110, R111, R112: MARK, in the spec's parenthesised expression and in its closed form. -/
def Obligations.MarkReplacesDataByItsMarker : Prop :=
  ∀ s : State, ∃ t, exec .mark s = .next t ∧
    (∀ x : Byte, x = (s.data ^^^ 0x0C) &&& s.data →
      t.data = (((x ^^^ 0xFF) &&& 0x67 ||| x &&& 0x98) ^^^ 0x6F) ||| x &&& 0x08) ∧
    t.data = closedMarker s.data ∧
    State.CompletedWith s t .ok s.status.ver

/-! ### The permutation -/

/-- R121, R123, R124, R125: SHUF2, UNSHUF1 and UNSHUF2 on a block inside memory. -/
def Obligations.PermutationCommandsMoveWords : Prop :=
  ∀ s : State, s.dstAddr.toNat + 256 ≤ s.params.memSize →
    ∀ c ∈ [(Instr.shuf2, s.params.pFwd), (.unshuf1, s.params.pInv1), (.unshuf2, s.params.pInv2)],
      ∃ t, exec c.1 s = .next t ∧
        (∀ j w (hj : j < 64) (_ : w < 4), t.mem.read (s.dstAddr.toNat + (4 * j + w)) =
          s.mem.read (s.dstAddr.toNat + (4 * (c.2[j]).val + w))) ∧
        State.CompletedWith s t .ok s.status.ver

/-- R120: with parameters that meet R13 each permutation is a bijection of blocks and `unshuffle2` undoes `shuffle2`. -/
def Obligations.PermutationsAreBijectionsAndInvert : Prop :=
  ∀ p : Params, p.Ok →
    Function.Bijective (perm p.pFwd) ∧ Function.Bijective (perm p.pInv1) ∧ Function.Bijective (perm p.pInv2) ∧
    ∀ X, perm p.pInv2 (perm p.pFwd X) = X

/-! ### The chaining steps -/

/-- R135, R136, R137: ENC_BLK on a block inside memory. -/
def Obligations.EncBlkEncodesOneBlock : Prop :=
  ∀ s : State, s.dstAddr.toNat + 256 ≤ s.params.memSize → ∃ t, exec .encBlk s = .next t ∧
    (∀ j w (hj : j < 64) (hw : w < 4), t.mem.read (s.dstAddr.toNat + (4 * j + w)) =
      s.mem.read (s.dstAddr.toNat + (4 * s.params.pFwd[j].val + w)) ^^^
        s.ks[4 * s.params.pFwd[j].val + w]'(by have := s.params.pFwd[j].isLt; omega)) ∧
    (∀ i (hi : i < 256), t.ks[i] =
      match s.params.chainTap with
      | .prePerm => s.mem.read (s.dstAddr.toNat + i) ^^^ s.ks[i]
      | .postPerm => t.mem.read (s.dstAddr.toNat + i)) ∧
    State.CompletedWith s t .ok s.status.ver

/-- R135, R136, R138, R139: DEC_BLK1 and DEC_BLK2 on a block inside memory. -/
def Obligations.DecBlkCommandsDecodeOneBlock : Prop :=
  ∀ s : State, s.dstAddr.toNat + 256 ≤ s.params.memSize →
    ∀ c ∈ [(Instr.decBlk1, s.params.pInv1), (.decBlk2, s.params.pInv2)],
      ∃ t, exec c.1 s = .next t ∧
        (∀ j w (hj : j < 64) (hw : w < 4), t.mem.read (s.dstAddr.toNat + (4 * j + w)) =
          s.mem.read (s.dstAddr.toNat + (4 * (c.2[j]).val + w)) ^^^ s.ks[4 * j + w]) ∧
        (∀ j w (hj : j < 64) (hw : w < 4), t.ks[4 * j + w] =
          match s.params.chainTap with
          | .prePerm => s.mem.read (s.dstAddr.toNat + (4 * (c.2[j]).val + w))
          | .postPerm => s.mem.read (s.dstAddr.toNat + (4 * j + w))) ∧
        State.CompletedWith s t .ok s.status.ver

/-- R139, R140: from the same KS, ENC_BLK then DEC_BLK2 restores the block and leaves KS as ENC_BLK left it. -/
def Obligations.EncBlkThenDecBlk2RestoresTheBlock : Prop :=
  ∀ s : State, Table.Inverts s.params.pFwd s.params.pInv2 → s.dstAddr.toNat + 256 ≤ s.params.memSize →
    ∃ t u, exec .encBlk s = .next t ∧ exec .decBlk2 (t.setKs s.ks) = .next u ∧
      State.KeepsMemory s u ∧ u.ks = t.ks ∧ State.CompletedWith s u .ok s.status.ver

/-- R140: the inverse law of the step functions, and of a chain of blocks, for either CHAIN_TAP. -/
def Obligations.DecodeChainInvertsEncodeChain : Prop :=
  ∀ p : Params, Table.Inverts p.pFwd p.pInv2 →
    (∀ X K, decStep p p.pInv2 (encStep p X K).1 K = (X, (encStep p X K).2)) ∧
    (∀ Xs K, decChain p p.pInv2 (encChain p Xs K).1 K = (Xs, (encChain p Xs K).2))

/-- R141: changing a stored block changes the next keystream, and so the block recovered after it. -/
def Obligations.ChainingCarriesEveryChangeOfABlock : Prop :=
  ∀ p : Params, p.Ok → ∀ T ∈ [p.pInv1, p.pInv2], ∀ S S' K X : Block, S ≠ S' →
    (decStep p T S K).2 ≠ (decStep p T S' K).2 ∧
    (decStep p T X (decStep p T S K).2).1 ≠ (decStep p T X (decStep p T S' K).2).1

/-! ### ENCODE -/

/-- R145: ENCODE of an empty source writes DST_LEN = 0 and STATUS, and nothing else. -/
def Obligations.EncodeOfAnEmptySourceIsANoOp : Prop :=
  ∀ s : State, s.srcLen = 0 → exec .encode s = .next ((s.setDstLen 0).complete .ok)

/-- R149, R153: ENCODE of a source of length n > 0 whose regions fit and do not overlap. -/
def Obligations.EncodeWritesTheV3Buffer : Prop :=
  ∀ s : State, s.params.MemSizeOk → s.srcLen ≠ 0 →
    s.srcAddr.toNat + s.srcLen.toNat ≤ s.params.memSize →
    s.dstAddr.toNat + (256 * (s.srcLen.toNat / 256 + 1) + 5) ≤ s.params.memSize →
    (s.srcAddr.toNat + s.srcLen.toNat ≤ s.dstAddr.toNat ∨
      s.dstAddr.toNat + (256 * (s.srcLen.toNat / 256 + 1) + 5) ≤ s.srcAddr.toNat) →
    ∃ t K, exec .encode s = .next t ∧
      (∀ i < 4, t.mem.read (s.dstAddr.toNat + i) = s.seed.extractLsb' (24 - 8 * i) 8) ∧
      IsSeedKeystream s.seed (K 0) ∧
      EncodesPayload s t s.srcAddr.toNat s.srcLen.toNat (s.dstAddr.toNat + 4) K ∧
      t.mem.read (s.dstAddr.toNat + 256 * (s.srcLen.toNat / 256 + 1) + 4) =
        closedMarker (BitVec.ofNat 8 (generatorByte s.seed 257)) ∧
      t.seed.toNat = seedAfter s.seed 257 ∧
      t.dstLen.toNat = 256 * (s.srcLen.toNat / 256 + 1) + 5 ∧
      State.CompletedWith s t .ok s.status.ver

/-- R150, R187, R188: ENCODE's errors, in the order they are checked; each writes DST_LEN = 0 and STATUS alone. -/
def Obligations.EncodeErrorsWriteOnlyDstLenAndStatus : Prop :=
  ∀ s : State, s.srcLen ≠ 0 →
    (s.params.memSize < s.srcAddr.toNat + s.srcLen.toNat →
      exec .encode s = .next ((s.setDstLen 0).complete .rangeError)) ∧
    (s.srcAddr.toNat + s.srcLen.toNat ≤ s.params.memSize →
      (s.params.memSize < s.dstAddr.toNat + (256 * (s.srcLen.toNat / 256 + 1) + 5) →
        exec .encode s = .next ((s.setDstLen 0).complete .rangeError)) ∧
      (s.dstAddr.toNat + (256 * (s.srcLen.toNat / 256 + 1) + 5) ≤ s.params.memSize →
        s.srcAddr.toNat < s.dstAddr.toNat + (256 * (s.srcLen.toNat / 256 + 1) + 5) →
        s.dstAddr.toNat < s.srcAddr.toNat + s.srcLen.toNat →
        exec .encode s = .next ((s.setDstLen 0).complete .overlapError)))

/-! ### DECODE -/

/-- R161, R187, R188: the errors of DECODE found before a version is known: VER = 0 and DST_LEN = 0. -/
def Obligations.DecodeErrorsBeforeTheVersionIsKnown : Prop :=
  ∀ s : State,
    (s.srcLen ≠ 0 → s.params.memSize < s.srcAddr.toNat + s.srcLen.toNat →
      exec .decode s = .next (((s.setDstLen 0).setVer none).complete .rangeError)) ∧
    (s.srcLen = 0 ∨ s.srcAddr.toNat + s.srcLen.toNat ≤ s.params.memSize →
      (s.srcLen.toNat < 261 →
        exec .decode s = .next (((s.setDstLen 0).setVer none).complete .tooShort)) ∧
      (261 ≤ s.srcLen.toNat → s.srcLen.toNat % 256 ∉ [32, 33, 5] →
        exec .decode s = .next (((s.setDstLen 0).setVer none).complete .unknownVersion)))

/-- R161, R187, R188: the errors of DECODE about its destination: VER is the detected version, DST_LEN = 0, and nothing
else is written. -/
def Obligations.DecodeErrorsOfTheDestination : Prop :=
  ∀ (s : State) (c : Version × Nat),
    c ∈ [(Version.v1, 32), (.v2, 33), (.v3, 5)] → 261 ≤ s.srcLen.toNat → s.srcLen.toNat % 256 = c.2 →
    s.srcAddr.toNat + s.srcLen.toNat ≤ s.params.memSize →
    (s.params.memSize < s.dstAddr.toNat + (s.srcLen.toNat - c.2) →
      exec .decode s = .next (((s.setDstLen 0).setVer (some c.1)).complete .rangeError)) ∧
    (s.dstAddr.toNat + (s.srcLen.toNat - c.2) ≤ s.params.memSize →
      s.srcAddr.toNat < s.dstAddr.toNat + (s.srcLen.toNat - c.2) →
      s.dstAddr.toNat < s.srcAddr.toNat + s.srcLen.toNat →
      exec .decode s = .next (((s.setDstLen 0).setVer (some c.1)).complete .overlapError))

/-- R158, R161, R187: a v3 buffer whose last byte is not the marker of its header's seed: IntegrityMismatch, with no memory,
KS or SEED write. -/
def Obligations.DecodeMarkerMismatchWritesNoOutput : Prop :=
  ∀ (s : State) (h : Word), 261 ≤ s.srcLen.toNat → s.srcLen.toNat % 256 = 5 →
    s.srcAddr.toNat + s.srcLen.toNat ≤ s.params.memSize →
    s.dstAddr.toNat + (s.srcLen.toNat - 5) ≤ s.params.memSize →
    (s.srcAddr.toNat + s.srcLen.toNat ≤ s.dstAddr.toNat ∨
      s.dstAddr.toNat + (s.srcLen.toNat - 5) ≤ s.srcAddr.toNat) →
    (∀ i < 4, s.mem.read (s.srcAddr.toNat + i) = h.extractLsb' (24 - 8 * i) 8) →
    s.mem.read (s.srcAddr.toNat + s.srcLen.toNat - 1) ≠ closedMarker (BitVec.ofNat 8 (generatorByte h 257)) →
    exec .decode s = .next (((s.setDstLen 0).setVer (some .v3)).complete .integrityMismatch)

/-- R157, R160, R161: DECODE of a v1 or v2 buffer whose regions fit and do not overlap. SEED is not touched. -/
def Obligations.DecodeOfLegacyBuffers : Prop :=
  ∀ (s : State) (c : Version × Nat × Table),
    c ∈ [(Version.v1, 32, s.params.pInv1), (.v2, 33, s.params.pInv2)] →
    s.params.MemSizeOk → 261 ≤ s.srcLen.toNat → s.srcLen.toNat % 256 = c.2.1 →
    s.srcAddr.toNat + s.srcLen.toNat ≤ s.params.memSize →
    s.dstAddr.toNat + (s.srcLen.toNat - c.2.1) ≤ s.params.memSize →
    (s.srcAddr.toNat + s.srcLen.toNat ≤ s.dstAddr.toNat ∨
      s.dstAddr.toNat + (s.srcLen.toNat - c.2.1) ≤ s.srcAddr.toNat) →
    ∃ t K, exec .decode s = .next t ∧
      IsIvKeystream s s.srcAddr.toNat (K 0) ∧
      DecodesPayload s t c.2.2 (s.srcAddr.toNat + 32) (s.srcLen.toNat - c.2.1) s.dstAddr.toNat K ∧
      t.seed = s.seed ∧
      PadOutcome s t c.1 s.dstAddr.toNat (s.srcLen.toNat - c.2.1)

/-- R157, R160, R161, R162: DECODE of a v3 buffer whose regions fit and do not overlap and whose marker is right. -/
def Obligations.DecodeOfV3Buffers : Prop :=
  ∀ (s : State) (h : Word), s.params.MemSizeOk → 261 ≤ s.srcLen.toNat → s.srcLen.toNat % 256 = 5 →
    s.srcAddr.toNat + s.srcLen.toNat ≤ s.params.memSize →
    s.dstAddr.toNat + (s.srcLen.toNat - 5) ≤ s.params.memSize →
    (s.srcAddr.toNat + s.srcLen.toNat ≤ s.dstAddr.toNat ∨
      s.dstAddr.toNat + (s.srcLen.toNat - 5) ≤ s.srcAddr.toNat) →
    (∀ i < 4, s.mem.read (s.srcAddr.toNat + i) = h.extractLsb' (24 - 8 * i) 8) →
    s.mem.read (s.srcAddr.toNat + s.srcLen.toNat - 1) = closedMarker (BitVec.ofNat 8 (generatorByte h 257)) →
    ∃ t K, exec .decode s = .next t ∧
      IsSeedKeystream h (K 0) ∧
      DecodesPayload s t s.params.pInv2 (s.srcAddr.toNat + 4) (s.srcLen.toNat - 5) s.dstAddr.toNat K ∧
      t.seed.toNat = seedAfter h 257 ∧
      PadOutcome s t .v3 s.dstAddr.toNat (s.srcLen.toNat - 5)

/-- R165: CorruptPadding is unreachable under ZERO_IS_256, and under ZERO_IS_CORRUPT it is exactly a decoded last byte 0. -/
def Obligations.CorruptPaddingIsExactlyAZeroLastByteUnderZeroIsCorrupt : Prop :=
  ∀ (p : Params) (B : List Byte),
    (p.pad0Mode = .zeroIs256 → ∀ v Y w K, decodeBuffer p B ≠ .corruptPadding v Y w K) ∧
    (p.pad0Mode = .zeroIsCorrupt →
      (∀ v Y w K, decodeBuffer p B = .corruptPadding v Y w K → Y.getLast? = some 0) ∧
      (∀ v Y n w K, decodeBuffer p B = .ok v Y n w K → Y.getLast? ≠ some 0))

/-- R166: any change of the last byte alone of a v3 buffer whose marker is right is an IntegrityMismatch, whether the
buffer decodes to a plaintext or to CorruptPadding. -/
def Obligations.AChangedMarkerByteIsAlwaysDetected : Prop :=
  ∀ (p : Params) (B : List Byte) (b : Byte) (Y : List Byte) (n : Nat) (w : Option Word) (K : Block),
    decodeBuffer p B = .ok .v3 Y n w K ∨ decodeBuffer p B = .corruptPadding .v3 Y w K → B.getLast? ≠ some b →
    decodeBuffer p (B.dropLast ++ [b]) = .integrityMismatch

/-- R78, R161: the trailing byte of a v2 buffer is never read by the transform. -/
def Obligations.TheV2TrailingByteIsIgnored : Prop :=
  ∀ (p : Params) (B : List Byte) (b : Byte), 261 ≤ B.length → B.length % 256 = 33 →
    decodeBuffer p (B.dropLast ++ [b]) = decodeBuffer p B

/-- R164: the round trip, for every non-empty plaintext and every seed; under ZERO_IS_CORRUPT it fails exactly for
block-aligned plaintexts, with CorruptPadding. -/
def Obligations.DecodeUndoesEncode : Prop :=
  ∀ (p : Params) (P : List Byte) (s : Word), Table.Inverts p.pFwd p.pInv2 → P ≠ [] →
    ∃ Y, Y.take P.length = P ∧
      decodeBuffer p (encodeBuffer p P s).bytes =
        if p.pad0Mode = .zeroIsCorrupt ∧ P.length % 256 = 0 then
          .corruptPadding .v3 Y (some (encodeBuffer p P s).seed) (encodeBuffer p P s).ks
        else .ok .v3 Y P.length (some (encodeBuffer p P s).seed) (encodeBuffer p P s).ks

/-- R164 on the machine: ENCODE, then DECODE of its destination into a third region `x`, restores the plaintext, its
length, and the seed and keystream ENCODE left. -/
def Obligations.EncodeThenDecodeRestoresThePlaintext : Prop :=
  ∀ (s : State) (x : Word), s.params.Ok → s.params.pad0Mode = .zeroIs256 → s.srcLen ≠ 0 →
    (sourceOperand s).Valid s.params → (encodeTarget s).Valid s.params →
    ¬ (sourceOperand s).Overlaps (encodeTarget s) →
    x.toNat + 256 * (s.srcLen.toNat / 256 + 1) ≤ s.params.memSize →
    (x.toNat + 256 * (s.srcLen.toNat / 256 + 1) ≤ s.dstAddr.toNat ∨
      s.dstAddr.toNat + (256 * (s.srcLen.toNat / 256 + 1) + 5) ≤ x.toNat) →
    ∃ t u, exec .encode s = .next t ∧
      exec .decode (((t.setSrcAddr s.dstAddr).setSrcLen t.dstLen).setDstAddr x) = .next u ∧
      (∀ i < s.srcLen.toNat, u.mem.read (x.toNat + i) = s.mem.read (s.srcAddr.toNat + i)) ∧
      u.dstLen = s.srcLen ∧ u.seed = t.seed ∧ u.ks = t.ks ∧
      State.CompletedWith s u .ok (some .v3)

/-! ### Frames -/

/-- R39: what the register-only commands leave unchanged; that PEND keeps its word is assumption 2. -/
def Obligations.RegisterCommandsFrame : Prop :=
  ∀ s : State,
    (∃ t, exec .lcgNext s = .next t ∧ s.KeepsOperands t ∧ t.ks = s.ks ∧ t.dstLen = s.dstLen ∧
      t.status.ver = s.status.ver ∧ s.KeepsMemory t) ∧
    (∃ t, exec .ksSeed s = .next t ∧ s.KeepsOperands t ∧ t.data = s.data ∧ t.dstLen = s.dstLen ∧
      t.status.ver = s.status.ver ∧ s.KeepsMemory t) ∧
    (∃ t, exec .ksIv s = .next t ∧ s.KeepsOperands t ∧ t.seed = s.seed ∧ t.data = s.data ∧ t.dstLen = s.dstLen ∧
      t.status.ver = s.status.ver ∧ s.KeepsMemory t) ∧
    (∃ t, exec .mark s = .next t ∧ s.KeepsOperands t ∧ t.seed = s.seed ∧ t.ks = s.ks ∧ t.dstLen = s.dstLen ∧
      t.status.ver = s.status.ver ∧ s.KeepsMemory t)

/-- R39: what the commands on the 256-byte operand at DST_ADDR leave unchanged; PEND by assumption 2. -/
def Obligations.BlockCommandsFrame : Prop :=
  ∀ (s : State) (i : Instr), i ∈ [Instr.shuf2, .unshuf1, .unshuf2, .encBlk, .decBlk1, .decBlk2] →
    ∃ t, exec i s = .next t ∧ s.KeepsOperands t ∧ t.seed = s.seed ∧ t.data = s.data ∧ t.dstLen = s.dstLen ∧
      t.status.ver = s.status.ver ∧ (i ∈ [Instr.shuf2, .unshuf1, .unshuf2] → t.ks = s.ks) ∧
      s.KeepsMemoryOutside t (blockOperand s)

/-- R39, R187: what ENCODE leaves unchanged, whatever its result; PEND by assumption 2. -/
def Obligations.EncodeFrame : Prop :=
  ∀ s : State, ∃ t, exec .encode s = .next t ∧ s.KeepsOperands t ∧ t.data = s.data ∧
    t.status.ver = s.status.ver ∧ s.KeepsMemoryOutside t (encodeTarget s)

/-- R39, R162, R187: what DECODE leaves unchanged, whatever its result; SEED too unless the source is v3; PEND by
assumption 2. -/
def Obligations.DecodeFrame : Prop :=
  ∀ s : State, ∃ t, exec .decode s = .next t ∧ s.KeepsOperands t ∧ t.data = s.data ∧
    (s.srcLen.toNat % 256 ≠ 5 → t.seed = s.seed) ∧
    (∀ a, (∀ v, versionOf s.srcLen.toNat = some v → ¬ (decodeTarget s v).Covers a) → t.mem.read a = s.mem.read a)

/-- R189: a command that ends with an error other than CorruptPadding leaves buffer memory, KS and SEED as they were. -/
def Obligations.ErrorsOtherThanCorruptPaddingWriteNoOutput : Prop :=
  ∀ (i : Instr) (s t : State), exec i s = .next t → t.status.err ≠ .ok → t.status.err ≠ .corruptPadding →
    t.mem = s.mem ∧ t.ks = s.ks ∧ t.seed = s.seed ∧ t.data = s.data

/-- R161, R216: ENCODE and DECODE build their own keystream, and DECODE takes its seed from the header: what KS held before
does not reach ENCODE's results, nor what KS and SEED held DECODE's. -/
def Obligations.PipelinesIgnoreTheOldKeystream : Prop :=
  ∀ (s t : State) (K : Block) (w : Word),
    (exec .encode s = .next t → t.status.err = .ok → s.srcLen ≠ 0 → exec .encode (s.setKs K) = .next t) ∧
    (exec .decode s = .next t → t.status.err = .ok →
      ∃ u, exec .decode ((s.setKs K).setSeed w) = .next u ∧
        u = t.setSeed (if t.status.ver = some .v3 then t.seed else w))

/-! ### The host's accesses -/

/-- R190: a CMD write while BUSY = 0 issues the command, as one step; while BUSY = 1 it is dropped and sets OVR. -/
def Obligations.CmdWriteIssuesTheCommand : Prop :=
  ∀ (s : State) (v : Word),
    (s.status.busy = false → s.access (.writeReg 32 0x000 v) = .next
      { s with pend := v, status := { s.status with busy := true, done := false } }) ∧
    (s.status.busy = true → s.access (.writeReg 32 0x000 v) = .next
      { s with status := { s.status with ovr := true } })

/-- R213: writes while BUSY = 1. -/
def Obligations.WritesWhileBusyAreDropped : Prop :=
  ∀ (s : State) (v : Word), s.status.busy = true →
    (∀ o ∈ [0x000, 0x00C, 0x010, 0x014, 0x018, 0x020], s.access (.writeReg 32 o v) =
      .next (s.setStatus { s.status with ovr := true })) ∧
    (∀ i < 64, s.access (.writeReg 32 (0x100 + 4 * i) v) = .next (s.setStatus { s.status with ovr := true })) ∧
    s.access (.writeReg 32 0x004 v) = .next (s.setStatus (s.status.writeOneToClear v)) ∧
    s.access (.writeReg 32 0x008 v) = .next (s.setIe (v.getLsbD 0)) ∧
    (∀ o ∈ [0x01C, 0x024, 0x028], s.access (.writeReg 32 o v) = .next s) ∧
    (∀ i < 53, s.access (.writeReg 32 (0x02C + 4 * i) v) = .next s)

/-- R25, R185: where each field of STATUS stands in the word, with the numbers of the completion codes and versions; the
reserved bits read 0; a write, at any time, clears DONE and OVR where it has a 1 and changes no other bit. -/
def Obligations.StatusWordHoldsItsFields : Prop :=
  ∀ s : State,
    (∀ v : Word, ∃ t, s.access (.writeReg 32 0x004 v) = .next t ∧
      t.status.word = s.status.word &&& ~~~(v &&& 0x00000006) ∧ t = s.setStatus t.status) ∧
    s.status.word.getLsbD 0 = s.status.busy ∧ s.status.word.getLsbD 1 = s.status.done ∧
    s.status.word.getLsbD 2 = s.status.ovr ∧ s.status.word.getLsbD 3 = false ∧
    s.status.word.extractLsb' 4 4 = s.status.err.num ∧ s.status.word.extractLsb' 8 2 = verField s.status.ver ∧
    s.status.word.toNat < 2 ^ 10 ∧ s.status.err.num.toNat < 8 ∧
    (s.status.err, (s.status.word.extractLsb' 4 4).toNat) ∈ [(Code.ok, 0), (.tooShort, 1), (.unknownVersion, 2),
      (.integrityMismatch, 3), (.corruptPadding, 4), (.rangeError, 5), (.overlapError, 6), (.illegalCommand, 7)] ∧
    (s.status.ver, (s.status.word.extractLsb' 8 2).toNat) ∈ [(none, 0), (some Version.v1, 1), (some .v2, 2), (some .v3, 3)]

/-- R26 to R35: on an idle block a host write sets the writable bits of its register and leaves the register's other bits,
every other register, memory and the parameters as they were. CMD and STATUS writes have rules of their own. -/
def Obligations.IdleRegisterWritesSetTheWritableBits : Prop :=
  ∀ (s : State) (r : Reg) (v : Word), s.status.busy = false → r ≠ .cmd → r ≠ .status →
    ∃ t, s.access (.writeReg 32 r.offset v) = .next t ∧
      t.regValue r = v &&& r.writable ||| s.regValue r &&& ~~~r.writable ∧
      (∀ q ≠ r, t.regValue q = s.regValue q) ∧
      t.mem = s.mem ∧ t.pend = s.pend ∧ t.params = s.params ∧ t.script = s.script ∧ t.seen = s.seen ∧ t.draws = s.draws

/-- R35: KSW[i] is bytes 4i to 4i+3 of KS, little-endian; a write sets those four and no other. -/
def Obligations.KswPacksKsLittleEndian : Prop :=
  (∀ (K : Block) (i : Fin 64), (kswWord K i).toNat =
    K[4 * i.val].toNat + K[4 * i.val + 1].toNat * 2 ^ 8 + K[4 * i.val + 2].toNat * 2 ^ 16 +
      K[4 * i.val + 3].toNat * 2 ^ 24) ∧
  (∀ (s : State) (i : Fin 64) (v : Word), s.status.busy = false →
    ∃ t, s.access (.writeReg 32 (0x100 + 4 * i.val) v) = .next t ∧
      (∀ k (_ : k < 4), t.ks[4 * i.val + k] = v.extractLsb' (8 * k) 8) ∧
      (∀ j (_ : j < 256), j / 4 ≠ i.val → t.ks[j] = s.ks[j]) ∧
      t = s.setKs t.ks)

/-- R57: exactly the accesses outside the interface are refused (but for R214's buffer write while busy); reserved offsets
read 0 and ignore writes. That a buffer access of a width other than 8 bits is refused too is deduced (assumption 8; D3). -/
def Obligations.AccessesOutsideTheInterfaceAreRefused : Prop :=
  ∀ (s : State) (width x : Nat) (v : Word) (b : Byte),
    (s.access (.readReg width x) = .refused (.registerAccess width x) ↔ width ≠ 32 ∨ x % 4 ≠ 0 ∨ 0x200 ≤ x) ∧
    (s.access (.writeReg width x v) = .refused (.registerAccess width x) ↔ width ≠ 32 ∨ x % 4 ≠ 0 ∨ 0x200 ≤ x) ∧
    (s.access (.readMem width x) = .refused (.bufferAccess width x) ↔ width ≠ 8 ∨ s.params.memSize ≤ x) ∧
    (s.access (.writeMem width x b) = .refused (.bufferAccess width x) ↔ width ≠ 8 ∨ s.params.memSize ≤ x) ∧
    (x % 4 = 0 → 0x02C ≤ x → x ≤ 0x0FC →
      s.access (.readReg 32 x) = .next (s.saw (.reg x 0)) ∧ s.access (.writeReg 32 x v) = .next s)

/-- R23: the table of the register window. The offset of a register reaches it with 32 bits, and no other access does. -/
def Obligations.RegisterMapIsOneToOne : Prop :=
  ∀ (width x : Nat) (r : Reg),
    (Reg.at width x = some r ↔ width = 32 ∧ x = r.offset) ∧
    (Reg.at width x = some r ↔ width = 32 ∧
      ((x, r) ∈ [(0x000, Reg.cmd), (0x004, .status), (0x008, .ctrl), (0x00C, .seed), (0x010, .srcAddr), (0x014, .srcLen),
          (0x018, .dstAddr), (0x01C, .dstLen), (0x020, .data), (0x024, .id), (0x028, .cfg)] ∨
        (∃ i : Fin 53, x = 0x02C + 4 * i.val ∧ r = .reserved i) ∨
        (∃ i : Fin 64, x = 0x100 + 4 * i.val ∧ r = .ksw i)))

/-- R57, R58: on an idle block a byte the host writes reads back, and every other byte is unchanged. -/
def Obligations.HostByteWritesReadBack : Prop :=
  ∀ (s : State) (a : Nat) (b : Byte), s.status.busy = false → a < s.params.memSize →
    ∃ t, s.access (.writeMem 8 a b) = .next t ∧ t = s.setMem t.mem ∧ t.mem.read a = b ∧
      (∀ x ≠ a, t.mem.read x = s.mem.read x) ∧
      t.access (.readMem 8 a) = .next (t.saw (.byte a b))

/-- R214: a buffer write while BUSY = 1 is refused; a buffer read returns a free value and changes nothing else. -/
def Obligations.BufferAccessesWhileBusy : Prop :=
  ∀ (s : State) (a : Nat) (b : Byte), s.status.busy = true → a < s.params.memSize →
    s.access (.writeMem 8 a b) = .refused (.bufferWriteWhileBusy a) ∧
    s.access (.readMem 8 a) =
      .next { s with seen := s.seen ++ [.byte a (Config.freeByte s.params.regBase s.draws)], draws := s.draws + 1 }

/-- R24 to R35, R58, R215: a register read returns the rule value, written out at each offset of the map, or a free value
for SEED, DATA, DST_LEN and KSW while BUSY = 1, and changes nothing of the block. -/
def Obligations.RegisterReadsHaveNoSideEffect : Prop :=
  ∀ s : State,
    (∀ r : Reg,
      (s.status.busy = false → s.access (.readReg 32 r.offset) = .next (s.saw (.reg r.offset (s.regValue r)))) ∧
      (s.status.busy = true → r ∈ [Reg.status, .ctrl, .id, .cfg, .srcAddr, .srcLen, .dstAddr, .cmd] →
        s.access (.readReg 32 r.offset) = .next (s.saw (.reg r.offset (s.regValue r)))) ∧
      (s.status.busy = true → (r ∈ [Reg.seed, .data, .dstLen] ∨ ∃ i, r = .ksw i) →
        s.access (.readReg 32 r.offset) = .next { s with
          seen := s.seen ++ [.reg r.offset (Config.freeWord s.params.regBase s.draws)], draws := s.draws + 1 })) ∧
    (∀ c ∈ [((0x000 : Nat), (0 : Word)), (0x004, s.status.word), (0x008, if s.ie then 1 else 0), (0x010, s.srcAddr),
        (0x014, s.srcLen), (0x018, s.dstAddr), (0x024, 0x50435259), (0x028, cfgWord s.params)],
      s.access (.readReg 32 c.1) = .next { s with seen := s.seen ++ [.reg c.1 c.2] }) ∧
    (s.status.busy = false →
      (∀ c ∈ [((0x00C : Nat), s.seed), (0x01C, s.dstLen), (0x020, s.data.setWidth 32)],
        s.access (.readReg 32 c.1) = .next { s with seen := s.seen ++ [.reg c.1 c.2] }) ∧
      (∀ i : Fin 64, s.access (.readReg 32 (0x100 + 4 * i.val)) = .next { s with
        seen := s.seen ++ [.reg (0x100 + 4 * i.val)
          (s.ks[4 * i.val + 3] ++ s.ks[4 * i.val + 2] ++ s.ks[4 * i.val + 1] ++ s.ks[4 * i.val])] })) ∧
    (s.status.busy = true → ∀ o, (o ∈ [0x00C, 0x01C, 0x020] ∨ ∃ i < 64, o = 0x100 + 4 * i) →
      s.access (.readReg 32 o) = .next { s with
        seen := s.seen ++ [.reg o (Config.freeWord s.params.regBase s.draws)], draws := s.draws + 1 })

/-- R194, R195: what raises and what clears the interrupt output. -/
def Obligations.IrqIsRaisedByCompletionAndCleared : Prop :=
  ∀ s : State,
    (∀ c, (s.complete c).irq = s.ie) ∧
    (∀ v : Word, v.getLsbD 1 = true → ∃ t, s.access (.writeReg 32 0x004 v) = .next t ∧ t.irq = false) ∧
    (∀ v : Word, v.getLsbD 0 = false → ∃ t, s.access (.writeReg 32 0x008 v) = .next t ∧ t.irq = false ∧
      t.status = s.status) ∧
    (∀ v : Word, s.status.busy = false → ∃ t, s.access (.writeReg 32 0x000 v) = .next t ∧ t.irq = false) ∧
    (∃ t, s.access .reset = .next t ∧ t.irq = false)

/-! ### Reset -/

/-- R210: a reset, as one step, leaves every register at its reset value, IRQ at 0, buffer memory unchanged and PEND
unspecified: a free value. -/
def Obligations.ResetLeavesTheResetValues : Prop :=
  ∀ s : State, ∃ t, s.access .reset = .next t ∧
    (∀ r, r ≠ .id → r ≠ .cfg → t.regValue r = 0) ∧ t.regValue .id = 0x50435259 ∧
    t.regValue .cfg = s.regValue .cfg ∧ (∀ i (_ : i < 256), t.ks[i] = 0) ∧ t.status.busy = false ∧ t.irq = false ∧
    t.mem = s.mem ∧ t.params = s.params ∧ t.pend = Config.freeWord s.params.regBase s.draws

/-- R23, R33, R34, R210: what every register reads right after reset, with the default parameters (assumption 1 names
MEM_SIZE and REG_BASE; no clause rests on them). -/
def Obligations.RegistersReadTheirResetValues : Prop :=
  (∀ r, r ≠ .id → r ≠ .cfg → State.reset.regValue r = 0) ∧ State.reset.regValue .id = 0x50435259 ∧
  State.reset.regValue .cfg = 0x00000004 ∧ State.reset.irq = false

/-! ### Invariants and whole-machine rules -/

/-- The state after reset meets the invariant (parameters as assumption 1 chooses them). -/
def Obligations.ResetMeetsTheInvariant : Prop := State.reset.Inv

/-- Every step keeps the invariant: the parameters are legal, memory is canonical and inside MEM_SIZE, DONE = 0 while
BUSY = 1, DST_LEN is at most MEM_SIZE. -/
def Obligations.EveryStepKeepsTheInvariant : Prop :=
  ∀ s t : State, s.Inv → step s = .next t → t.Inv

/-- R8 to R13, R34: CFG reads, at any time, as the fields of R34 say for the instance's parameters, and no step changes a
parameter or CFG. -/
def Obligations.NoStepChangesTheParameters : Prop :=
  ∀ s : State,
    (∀ t, step s = .next t → t.params = s.params ∧ t.regValue .cfg = s.regValue .cfg) ∧
    ∃ w : Word, s.regValue .cfg = w ∧
      s.access (.readReg 32 0x028) = .next { s with seen := s.seen ++ [.reg 0x028 w] } ∧
      (w.getLsbD 0 = true ↔ s.params.chainTap = .postPerm) ∧
      (w.getLsbD 1 = true ↔ s.params.pad0Mode = .zeroIsCorrupt) ∧
      (w.getLsbD 2 = true ↔
        ∀ j : Fin 64, s.params.pFwd[j] = j ∧ s.params.pInv1[j] = j ∧ s.params.pInv2[j] = j) ∧
      w.toNat < 2 ^ 3

/-- R190, R191: only a CMD write of the host makes an idle block busy, and only a completion sets DONE. -/
def Obligations.OnlyIssueSetsBusyAndOnlyCompletionSetsDone : Prop :=
  ∀ s t : State, step s = .next t →
    (s.status.busy = false → t.status.busy = true →
      ∃ v, s.script = .writeReg 32 0x000 v :: t.script ∧ t.pend = v ∧ t.status.done = false) ∧
    (s.status.done = false → t.status.done = true → s.status.busy = true ∧ t.status.busy = false)

/-- R57, R193, R214: a step stops only by refusing an access of the host, outside the interface (of a buffer access not 8
bits wide, by assumption 8) or a buffer write while BUSY = 1: never at a command. -/
def Obligations.OnlyAHostAccessIsRefused : Prop :=
  ∀ (s : State) (q : Refusal), step s = .refused q → ∃ a rest, s.script = a :: rest ∧
    ((∃ width x, (a = .readReg width x ∨ ∃ v, a = .writeReg width x v) ∧ q = .registerAccess width x ∧
        (width ≠ 32 ∨ x % 4 ≠ 0 ∨ 0x200 ≤ x)) ∨
      (∃ width x, (a = .readMem width x ∨ ∃ b, a = .writeMem width x b) ∧ q = .bufferAccess width x ∧
        (width ≠ 8 ∨ s.params.memSize ≤ x)) ∨
      (∃ x b, a = .writeMem 8 x b ∧ q = .bufferWriteWhileBusy x ∧ s.status.busy = true))

/-- R9, R205: a step of one instance leaves every other instance as it was, does not depend on them, and keeps the platform
legal: at least one instance, each with legal parameters and a window of its own (assumption 10 for the windows). The two
steps of instance `k` are compared at the same free values (assumptions 4, 5). -/
def Obligations.InstancesShareNoState : Prop :=
  ∀ (P Q R : Platform) (k : Nat), P.instances[k]? = Q.instances[k]? → P.stepAt k = .next R →
    (P.Ok → R.Ok) ∧
    R.instances.length = P.instances.length ∧
    (∀ j ≠ k, R.instances[j]? = P.instances[j]?) ∧
    ∃ R', Q.stepAt k = .next R' ∧ R'.instances[k]? = R.instances[k]?
end

