-- ==== Sys2Proof/Laws/Block.lean ====
section
/-!
SUPPORT. The element lemmas of the fixed-length sequences and of the block operations.
-/
namespace Sys2Proof

@[simp] theorem tabulate_getElem {α : Type} {n : Nat} (f : Fin n → α) (i : Nat) (h : i < n) :
    (tabulate n f)[i] = f ⟨i, h⟩ := by
  simp [tabulate]

theorem takeD_getElem {α : Type} (d : α) : ∀ (n : Nat) (l : List α) (i : Nat) (h : i < (l.takeD n d).length),
    (l.takeD n d)[i] = l.getD i d
  | n + 1, [], 0, _ => by simp [List.takeD]
  | n + 1, b :: l, 0, _ => by simp [List.takeD]
  | n + 1, [], i + 1, _ => by simp [List.takeD]
  | n + 1, b :: l, i + 1, h => by
    have := takeD_getElem d n l i (by simpa using h)
    simpa [List.takeD] using this

@[simp] theorem fill_getElem (n : Nat) (l : List Byte) (i : Nat) (h : i < n) : (fill n l)[i] = l.getD i 0 := by
  have := takeD_getElem (0 : Byte) n l i (by simpa using h)
  simpa [fill] using this

@[simp] theorem fill_toList (n : Nat) (l : List Byte) : (fill n l).toList = l.takeD n 0 := by
  simp [fill]

theorem fill_vector_toList {n : Nat} (X : Vector Byte n) : fill n X.toList = X := by
  apply Vector.ext
  intro i h
  simp [List.getD_eq_getElem?_getD, h]

/-- A block is the first block of any byte sequence that begins with its bytes. -/
theorem fill_append_toList {n : Nat} (X : Vector Byte n) (l : List Byte) : fill n (X.toList ++ l) = X := by
  apply Vector.ext
  intro i h
  simp [List.getD_eq_getElem?_getD, List.getElem?_append_left, h]

namespace Machine

@[simp] theorem Block.xor_getElem (X K : Block) (i : Nat) (h : i < 256) : (Block.xor X K)[i] = X[i] ^^^ K[i] := by
  simp [Block.xor]

/-- XOR with the same keystream twice gives the block back. -/
@[simp] theorem Block.xor_xor_cancel (X K : Block) : Block.xor (Block.xor X K) K = X := by
  apply Vector.ext
  intro i h
  simp

/-- `perm` byte by byte (R121). -/
theorem perm_getElem (T : Table) (X : Block) (i : Nat) (h : i < 256) :
    (perm T X)[i] = X[4 * (T[i / 4]'(by omega)).val + i % 4]'(by have := (T[i / 4]'(by omega)).isLt; omega) := by
  simp [perm]

/-- `perm` at byte `k` of word `j` (R121). -/
theorem perm_getElem_word (T : Table) (X : Block) (j k : Nat) (hj : j < 64) (hk : k < 4) :
    (perm T X)[4 * j + k] = X[4 * T[j].val + k]'(by have := T[j].isLt; omega) := by
  have h1 : (4 * j + k) / 4 = j := by omega
  have h2 : (4 * j + k) % 4 = k := by omega
  simp [perm_getElem, h1, h2]

end Machine

end Sys2Proof
end

