-- ==== Sys2Proof/Laws/Memory.lean ====
section
/-!
SUPPORT. Buffer memory: what a byte reads as after a write, for every memory, and that every memory operation keeps the
canonical form and stays below MEM_SIZE.
-/
namespace Sys2Proof.Machine

namespace Memory

theorem read_of_not_listed {m : Memory} {a : Nat} (h : ∀ c ∈ m, c.1 ≠ a) : Memory.read m a = Memory.unlisted := by
  induction m with
  | nil => rfl
  | cons c m ih =>
    rw [Memory.read, if_neg (h c (by simp)), ih fun d hd => h d (by simp [hd])]

theorem read_append_right {m q : Memory} {a : Nat} (h : ∀ c ∈ m, c.1 ≠ a) :
    Memory.read (m ++ q) a = Memory.read q a := by
  induction m with
  | nil => rfl
  | cons c m ih =>
    rw [List.cons_append, Memory.read, if_neg (h c (by simp)), ih fun d hd => h d (by simp [hd])]

theorem read_append_left {m q : Memory} {a : Nat} (h : ∀ c ∈ q, c.1 ≠ a) :
    Memory.read (m ++ q) a = Memory.read m a := by
  induction m with
  | nil => simpa [Memory.read] using Memory.read_of_not_listed h
  | cons c m ih => simp only [List.cons_append, Memory.read, ih]

theorem read_filter {m : Memory} {a : Nat} (p : Nat → Bool) (h : p a = true) :
    Memory.read (m.filter fun c => p c.1) a = Memory.read m a := by
  induction m with
  | nil => rfl
  | cons c m ih =>
    by_cases hc : c.1 = a
    · simp [hc, h, Memory.read]
    · by_cases hp : p c.1 = true <;> simp [hp, hc, Memory.read, ih]

theorem cells_addr {bytes : List Byte} {a : Nat} {c : Host.Cell} (h : c ∈ Memory.cells a bytes) :
    a ≤ c.1 ∧ c.1 < a + bytes.length := by
  induction bytes generalizing a with
  | nil => simp [Memory.cells] at h
  | cons b bytes ih =>
    simp only [List.length_cons]
    rw [Memory.cells] at h
    split at h
    · have := ih h; omega
    · rcases List.mem_cons.1 h with rfl | h
      · simp
      · have := ih h; omega

theorem cells_listed {bytes : List Byte} {a : Nat} {c : Host.Cell} (h : c ∈ Memory.cells a bytes) :
    c.2 ≠ Memory.unlisted := by
  induction bytes generalizing a with
  | nil => simp [Memory.cells] at h
  | cons b bytes ih =>
    rw [Memory.cells] at h
    split at h
    · exact ih h
    · rcases List.mem_cons.1 h with rfl | h
      · assumption
      · exact ih h

theorem cells_sorted (bytes : List Byte) (a : Nat) : (Memory.cells a bytes).Pairwise (fun x y => x.1 < y.1) := by
  induction bytes generalizing a with
  | nil => simp [Memory.cells]
  | cons b bytes ih =>
    rw [Memory.cells]
    split
    · exact ih _
    · refine List.pairwise_cons.2 ⟨fun c hc => ?_, ih _⟩
      have := Memory.cells_addr hc
      simp; omega

theorem read_cells (bytes : List Byte) (a x : Nat) (h : a ≤ x ∧ x < a + bytes.length) :
    Memory.read (Memory.cells a bytes) x = bytes.getD (x - a) 0 := by
  induction bytes generalizing a with
  | nil => simp at h; omega
  | cons b bytes ih =>
    simp only [List.length_cons] at h
    rw [Memory.cells]
    by_cases hx : x = a
    · subst hx
      split
      · rename_i hb
        rw [Memory.read_of_not_listed fun c hc => by have := Memory.cells_addr hc; omega]
        simp [hb, Memory.unlisted]
      · simp [Memory.read]
    · have hsub : x - a = (x - (a + 1)) + 1 := by omega
      split
      · rw [ih (a + 1) (by omega), hsub]; simp
      · rw [Memory.read, if_neg (by simpa using fun e => hx e.symm), ih (a + 1) (by omega), hsub]; simp

/-- What a byte reads as after a write: inside the written region the byte written there, elsewhere what it read
as before. It holds for every memory, canonical or not. -/
theorem read_writeBytes (m : Memory) (a x : Nat) (bytes : List Byte) :
    Memory.read (m.writeBytes a bytes) x =
      if a ≤ x ∧ x < a + bytes.length then bytes.getD (x - a) 0 else m.read x := by
  unfold Memory.writeBytes
  by_cases h : a ≤ x ∧ x < a + bytes.length
  · rw [if_pos h, Memory.read_append_right (by simp; omega), Memory.read_append_left (by simp; omega),
      Memory.read_cells bytes a x h]
  · rw [if_neg h]
    have hc : ∀ c ∈ Memory.cells a bytes, c.1 ≠ x := fun c hc => by have := Memory.cells_addr hc; omega
    by_cases hx : x < a
    · rw [Memory.read_append_left (fun c hm => ?_)]
      · exact Memory.read_filter (fun k => decide (k < a)) (by simpa using hx)
      · rcases List.mem_append.1 hm with hm | hm
        · exact hc c hm
        · simp at hm; omega
    · rw [Memory.read_append_right (by simp; omega), Memory.read_append_right hc]
      exact Memory.read_filter (fun k => decide (a + bytes.length ≤ k)) (by simp; omega)

/-- A single-byte write (R57). -/
theorem read_write (m : Memory) (a x : Nat) (b : Byte) :
    Memory.read (m.write a b) x = if x = a then b else m.read x := by
  unfold Memory.write
  rw [Memory.read_writeBytes]
  by_cases h : x = a
  · subst h; simp
  · rw [if_neg (by simp; omega), if_neg h]

/-- Every write keeps the canonical form. -/
theorem writeBytes_wf {m : Memory} (h : m.wf) (a : Nat) (bytes : List Byte) : (m.writeBytes a bytes).wf := by
  obtain ⟨hs, hl⟩ := h
  refine ⟨?_, fun c hc => ?_⟩
  · refine List.pairwise_append.2 ⟨hs.filter _, List.pairwise_append.2 ⟨Memory.cells_sorted _ _, hs.filter _, ?_⟩, ?_⟩
    · intro x hx y hy
      have := Memory.cells_addr hx
      simp at hy; omega
    · intro x hx y hy
      simp at hx
      rcases List.mem_append.1 hy with hy | hy
      · have := Memory.cells_addr hy; omega
      · simp at hy; omega
  · unfold Memory.writeBytes at hc
    rcases List.mem_append.1 hc with hc | hc
    · exact hl c (List.mem_filter.1 hc).1
    · rcases List.mem_append.1 hc with hc | hc
      · exact Memory.cells_listed hc
      · exact hl c (List.mem_filter.1 hc).1

/-- A write inside a valid region lists no address that does not exist. -/
theorem writeBytes_within {m : Memory} {size : Nat} (h : m.within size) (a : Nat) (bytes : List Byte)
    (hb : bytes.length = 0 ∨ a + bytes.length ≤ size) : (m.writeBytes a bytes).within size := by
  intro c hc
  unfold Memory.writeBytes at hc
  rcases List.mem_append.1 hc with hc | hc
  · exact h c (List.mem_filter.1 hc).1
  · rcases List.mem_append.1 hc with hc | hc
    · have := Memory.cells_addr hc; omega
    · exact h c (List.mem_filter.1 hc).1

theorem write_wf {m : Memory} (h : m.wf) (a : Nat) (b : Byte) : (m.write a b).wf := Memory.writeBytes_wf h a [b]

theorem write_within {m : Memory} {size : Nat} (h : m.within size) {a : Nat} (b : Byte) (ha : a < size) :
    (m.write a b).within size := Memory.writeBytes_within h a [b] (by simp; omega)

/-- A listed byte reads as its cell. -/
theorem read_of_mem {m : Memory} (h : m.wf) {c : Host.Cell} (hc : c ∈ m) : m.read c.1 = c.2 := by
  obtain ⟨hs, -⟩ := h
  induction m with
  | nil => simp at hc
  | cons d m ih =>
    rw [List.pairwise_cons] at hs
    rw [Memory.read]
    rcases List.mem_cons.1 hc with rfl | hm
    · simp
    · have := hs.1 c hm
      rw [if_neg (by omega), ih hm hs.2]

/-- Two canonical memories that read alike at every address are the same data. -/
theorem eq_of_read_eq {m q : Memory} (hm : m.wf) (hq : q.wf) (h : ∀ a, m.read a = q.read a) : m = q := by
  have sub : ∀ {m q : Memory}, m.wf → q.wf → (∀ a, m.read a = q.read a) → ∀ c ∈ m, c ∈ q := by
    intro m q hm hq h c hc
    by_cases hx : ∃ d ∈ q, d.1 = c.1
    · obtain ⟨d, hd, hdc⟩ := hx
      have e := Memory.read_of_mem hq hd
      rw [hdc, ← h, Memory.read_of_mem hm hc] at e
      have : d = c := Prod.ext hdc e.symm
      exact this ▸ hd
    · have e := Memory.read_of_mem hm hc
      rw [h, Memory.read_of_not_listed fun d hd hdc => hx ⟨d, hd, hdc⟩] at e
      exact absurd e.symm (hm.2 c hc)
  have nodup : ∀ {m : Memory}, m.wf → m.Nodup := fun hm => hm.1.imp fun hlt e => by rw [e] at hlt; omega
  have hp : m.Perm q := (List.perm_ext_iff_of_nodup (nodup hm) (nodup hq)).2 fun c =>
    ⟨sub hm hq h c, sub hq hm (fun a => (h a).symm) c⟩
  exact hp.eq_of_pairwise (fun a b _ _ hab hba => by omega) hm.1 hq.1

@[simp] theorem readBytes_length (m : Memory) (a n : Nat) : (m.readBytes a n).length = n := by
  simp [Memory.readBytes]

@[simp] theorem readBytes_getElem (m : Memory) (a n i : Nat) (h : i < (m.readBytes a n).length) :
    (m.readBytes a n)[i] = m.read (a + i) := by
  simp [Memory.readBytes]

theorem readBytes_getD (m : Memory) (a n i : Nat) (h : i < n) : (m.readBytes a n).getD i 0 = m.read (a + i) := by
  simp [List.getD_eq_getElem?_getD, h]

end Memory

end Sys2Proof.Machine
end

