-- ==== Sys2Proof/Laws/State.lean ====
section
/-!
SUPPORT. One lemma per field per update of State, each true by rfl, so that no proof unfolds a record update.
The updates are those of Machine/Ops.lean: one per field, and the composed ones.
-/
namespace Sys2Proof.Machine

/-! ### State.setStatus -/

@[simp] theorem State.setStatus_params (s : State) (v : Status) : (s.setStatus v).params = s.params := rfl
@[simp] theorem State.setStatus_status (s : State) (v : Status) : (s.setStatus v).status = v := rfl
@[simp] theorem State.setStatus_ie (s : State) (v : Status) : (s.setStatus v).ie = s.ie := rfl
@[simp] theorem State.setStatus_seed (s : State) (v : Status) : (s.setStatus v).seed = s.seed := rfl
@[simp] theorem State.setStatus_srcAddr (s : State) (v : Status) : (s.setStatus v).srcAddr = s.srcAddr := rfl
@[simp] theorem State.setStatus_srcLen (s : State) (v : Status) : (s.setStatus v).srcLen = s.srcLen := rfl
@[simp] theorem State.setStatus_dstAddr (s : State) (v : Status) : (s.setStatus v).dstAddr = s.dstAddr := rfl
@[simp] theorem State.setStatus_dstLen (s : State) (v : Status) : (s.setStatus v).dstLen = s.dstLen := rfl
@[simp] theorem State.setStatus_data (s : State) (v : Status) : (s.setStatus v).data = s.data := rfl
@[simp] theorem State.setStatus_ks (s : State) (v : Status) : (s.setStatus v).ks = s.ks := rfl
@[simp] theorem State.setStatus_pend (s : State) (v : Status) : (s.setStatus v).pend = s.pend := rfl
@[simp] theorem State.setStatus_mem (s : State) (v : Status) : (s.setStatus v).mem = s.mem := rfl
@[simp] theorem State.setStatus_script (s : State) (v : Status) : (s.setStatus v).script = s.script := rfl
@[simp] theorem State.setStatus_seen (s : State) (v : Status) : (s.setStatus v).seen = s.seen := rfl
@[simp] theorem State.setStatus_draws (s : State) (v : Status) : (s.setStatus v).draws = s.draws := rfl

/-! ### State.setIe -/

@[simp] theorem State.setIe_params (s : State) (v : Bool) : (s.setIe v).params = s.params := rfl
@[simp] theorem State.setIe_status (s : State) (v : Bool) : (s.setIe v).status = s.status := rfl
@[simp] theorem State.setIe_ie (s : State) (v : Bool) : (s.setIe v).ie = v := rfl
@[simp] theorem State.setIe_seed (s : State) (v : Bool) : (s.setIe v).seed = s.seed := rfl
@[simp] theorem State.setIe_srcAddr (s : State) (v : Bool) : (s.setIe v).srcAddr = s.srcAddr := rfl
@[simp] theorem State.setIe_srcLen (s : State) (v : Bool) : (s.setIe v).srcLen = s.srcLen := rfl
@[simp] theorem State.setIe_dstAddr (s : State) (v : Bool) : (s.setIe v).dstAddr = s.dstAddr := rfl
@[simp] theorem State.setIe_dstLen (s : State) (v : Bool) : (s.setIe v).dstLen = s.dstLen := rfl
@[simp] theorem State.setIe_data (s : State) (v : Bool) : (s.setIe v).data = s.data := rfl
@[simp] theorem State.setIe_ks (s : State) (v : Bool) : (s.setIe v).ks = s.ks := rfl
@[simp] theorem State.setIe_pend (s : State) (v : Bool) : (s.setIe v).pend = s.pend := rfl
@[simp] theorem State.setIe_mem (s : State) (v : Bool) : (s.setIe v).mem = s.mem := rfl
@[simp] theorem State.setIe_script (s : State) (v : Bool) : (s.setIe v).script = s.script := rfl
@[simp] theorem State.setIe_seen (s : State) (v : Bool) : (s.setIe v).seen = s.seen := rfl
@[simp] theorem State.setIe_draws (s : State) (v : Bool) : (s.setIe v).draws = s.draws := rfl

/-! ### State.setSeed -/

@[simp] theorem State.setSeed_params (s : State) (v : Word) : (s.setSeed v).params = s.params := rfl
@[simp] theorem State.setSeed_status (s : State) (v : Word) : (s.setSeed v).status = s.status := rfl
@[simp] theorem State.setSeed_ie (s : State) (v : Word) : (s.setSeed v).ie = s.ie := rfl
@[simp] theorem State.setSeed_seed (s : State) (v : Word) : (s.setSeed v).seed = v := rfl
@[simp] theorem State.setSeed_srcAddr (s : State) (v : Word) : (s.setSeed v).srcAddr = s.srcAddr := rfl
@[simp] theorem State.setSeed_srcLen (s : State) (v : Word) : (s.setSeed v).srcLen = s.srcLen := rfl
@[simp] theorem State.setSeed_dstAddr (s : State) (v : Word) : (s.setSeed v).dstAddr = s.dstAddr := rfl
@[simp] theorem State.setSeed_dstLen (s : State) (v : Word) : (s.setSeed v).dstLen = s.dstLen := rfl
@[simp] theorem State.setSeed_data (s : State) (v : Word) : (s.setSeed v).data = s.data := rfl
@[simp] theorem State.setSeed_ks (s : State) (v : Word) : (s.setSeed v).ks = s.ks := rfl
@[simp] theorem State.setSeed_pend (s : State) (v : Word) : (s.setSeed v).pend = s.pend := rfl
@[simp] theorem State.setSeed_mem (s : State) (v : Word) : (s.setSeed v).mem = s.mem := rfl
@[simp] theorem State.setSeed_script (s : State) (v : Word) : (s.setSeed v).script = s.script := rfl
@[simp] theorem State.setSeed_seen (s : State) (v : Word) : (s.setSeed v).seen = s.seen := rfl
@[simp] theorem State.setSeed_draws (s : State) (v : Word) : (s.setSeed v).draws = s.draws := rfl

/-! ### State.setSrcAddr -/

@[simp] theorem State.setSrcAddr_params (s : State) (v : Word) : (s.setSrcAddr v).params = s.params := rfl
@[simp] theorem State.setSrcAddr_status (s : State) (v : Word) : (s.setSrcAddr v).status = s.status := rfl
@[simp] theorem State.setSrcAddr_ie (s : State) (v : Word) : (s.setSrcAddr v).ie = s.ie := rfl
@[simp] theorem State.setSrcAddr_seed (s : State) (v : Word) : (s.setSrcAddr v).seed = s.seed := rfl
@[simp] theorem State.setSrcAddr_srcAddr (s : State) (v : Word) : (s.setSrcAddr v).srcAddr = v := rfl
@[simp] theorem State.setSrcAddr_srcLen (s : State) (v : Word) : (s.setSrcAddr v).srcLen = s.srcLen := rfl
@[simp] theorem State.setSrcAddr_dstAddr (s : State) (v : Word) : (s.setSrcAddr v).dstAddr = s.dstAddr := rfl
@[simp] theorem State.setSrcAddr_dstLen (s : State) (v : Word) : (s.setSrcAddr v).dstLen = s.dstLen := rfl
@[simp] theorem State.setSrcAddr_data (s : State) (v : Word) : (s.setSrcAddr v).data = s.data := rfl
@[simp] theorem State.setSrcAddr_ks (s : State) (v : Word) : (s.setSrcAddr v).ks = s.ks := rfl
@[simp] theorem State.setSrcAddr_pend (s : State) (v : Word) : (s.setSrcAddr v).pend = s.pend := rfl
@[simp] theorem State.setSrcAddr_mem (s : State) (v : Word) : (s.setSrcAddr v).mem = s.mem := rfl
@[simp] theorem State.setSrcAddr_script (s : State) (v : Word) : (s.setSrcAddr v).script = s.script := rfl
@[simp] theorem State.setSrcAddr_seen (s : State) (v : Word) : (s.setSrcAddr v).seen = s.seen := rfl
@[simp] theorem State.setSrcAddr_draws (s : State) (v : Word) : (s.setSrcAddr v).draws = s.draws := rfl

/-! ### State.setSrcLen -/

@[simp] theorem State.setSrcLen_params (s : State) (v : Word) : (s.setSrcLen v).params = s.params := rfl
@[simp] theorem State.setSrcLen_status (s : State) (v : Word) : (s.setSrcLen v).status = s.status := rfl
@[simp] theorem State.setSrcLen_ie (s : State) (v : Word) : (s.setSrcLen v).ie = s.ie := rfl
@[simp] theorem State.setSrcLen_seed (s : State) (v : Word) : (s.setSrcLen v).seed = s.seed := rfl
@[simp] theorem State.setSrcLen_srcAddr (s : State) (v : Word) : (s.setSrcLen v).srcAddr = s.srcAddr := rfl
@[simp] theorem State.setSrcLen_srcLen (s : State) (v : Word) : (s.setSrcLen v).srcLen = v := rfl
@[simp] theorem State.setSrcLen_dstAddr (s : State) (v : Word) : (s.setSrcLen v).dstAddr = s.dstAddr := rfl
@[simp] theorem State.setSrcLen_dstLen (s : State) (v : Word) : (s.setSrcLen v).dstLen = s.dstLen := rfl
@[simp] theorem State.setSrcLen_data (s : State) (v : Word) : (s.setSrcLen v).data = s.data := rfl
@[simp] theorem State.setSrcLen_ks (s : State) (v : Word) : (s.setSrcLen v).ks = s.ks := rfl
@[simp] theorem State.setSrcLen_pend (s : State) (v : Word) : (s.setSrcLen v).pend = s.pend := rfl
@[simp] theorem State.setSrcLen_mem (s : State) (v : Word) : (s.setSrcLen v).mem = s.mem := rfl
@[simp] theorem State.setSrcLen_script (s : State) (v : Word) : (s.setSrcLen v).script = s.script := rfl
@[simp] theorem State.setSrcLen_seen (s : State) (v : Word) : (s.setSrcLen v).seen = s.seen := rfl
@[simp] theorem State.setSrcLen_draws (s : State) (v : Word) : (s.setSrcLen v).draws = s.draws := rfl

/-! ### State.setDstAddr -/

@[simp] theorem State.setDstAddr_params (s : State) (v : Word) : (s.setDstAddr v).params = s.params := rfl
@[simp] theorem State.setDstAddr_status (s : State) (v : Word) : (s.setDstAddr v).status = s.status := rfl
@[simp] theorem State.setDstAddr_ie (s : State) (v : Word) : (s.setDstAddr v).ie = s.ie := rfl
@[simp] theorem State.setDstAddr_seed (s : State) (v : Word) : (s.setDstAddr v).seed = s.seed := rfl
@[simp] theorem State.setDstAddr_srcAddr (s : State) (v : Word) : (s.setDstAddr v).srcAddr = s.srcAddr := rfl
@[simp] theorem State.setDstAddr_srcLen (s : State) (v : Word) : (s.setDstAddr v).srcLen = s.srcLen := rfl
@[simp] theorem State.setDstAddr_dstAddr (s : State) (v : Word) : (s.setDstAddr v).dstAddr = v := rfl
@[simp] theorem State.setDstAddr_dstLen (s : State) (v : Word) : (s.setDstAddr v).dstLen = s.dstLen := rfl
@[simp] theorem State.setDstAddr_data (s : State) (v : Word) : (s.setDstAddr v).data = s.data := rfl
@[simp] theorem State.setDstAddr_ks (s : State) (v : Word) : (s.setDstAddr v).ks = s.ks := rfl
@[simp] theorem State.setDstAddr_pend (s : State) (v : Word) : (s.setDstAddr v).pend = s.pend := rfl
@[simp] theorem State.setDstAddr_mem (s : State) (v : Word) : (s.setDstAddr v).mem = s.mem := rfl
@[simp] theorem State.setDstAddr_script (s : State) (v : Word) : (s.setDstAddr v).script = s.script := rfl
@[simp] theorem State.setDstAddr_seen (s : State) (v : Word) : (s.setDstAddr v).seen = s.seen := rfl
@[simp] theorem State.setDstAddr_draws (s : State) (v : Word) : (s.setDstAddr v).draws = s.draws := rfl

/-! ### State.setDstLen -/

@[simp] theorem State.setDstLen_params (s : State) (v : Word) : (s.setDstLen v).params = s.params := rfl
@[simp] theorem State.setDstLen_status (s : State) (v : Word) : (s.setDstLen v).status = s.status := rfl
@[simp] theorem State.setDstLen_ie (s : State) (v : Word) : (s.setDstLen v).ie = s.ie := rfl
@[simp] theorem State.setDstLen_seed (s : State) (v : Word) : (s.setDstLen v).seed = s.seed := rfl
@[simp] theorem State.setDstLen_srcAddr (s : State) (v : Word) : (s.setDstLen v).srcAddr = s.srcAddr := rfl
@[simp] theorem State.setDstLen_srcLen (s : State) (v : Word) : (s.setDstLen v).srcLen = s.srcLen := rfl
@[simp] theorem State.setDstLen_dstAddr (s : State) (v : Word) : (s.setDstLen v).dstAddr = s.dstAddr := rfl
@[simp] theorem State.setDstLen_dstLen (s : State) (v : Word) : (s.setDstLen v).dstLen = v := rfl
@[simp] theorem State.setDstLen_data (s : State) (v : Word) : (s.setDstLen v).data = s.data := rfl
@[simp] theorem State.setDstLen_ks (s : State) (v : Word) : (s.setDstLen v).ks = s.ks := rfl
@[simp] theorem State.setDstLen_pend (s : State) (v : Word) : (s.setDstLen v).pend = s.pend := rfl
@[simp] theorem State.setDstLen_mem (s : State) (v : Word) : (s.setDstLen v).mem = s.mem := rfl
@[simp] theorem State.setDstLen_script (s : State) (v : Word) : (s.setDstLen v).script = s.script := rfl
@[simp] theorem State.setDstLen_seen (s : State) (v : Word) : (s.setDstLen v).seen = s.seen := rfl
@[simp] theorem State.setDstLen_draws (s : State) (v : Word) : (s.setDstLen v).draws = s.draws := rfl

/-! ### State.setData -/

@[simp] theorem State.setData_params (s : State) (v : Byte) : (s.setData v).params = s.params := rfl
@[simp] theorem State.setData_status (s : State) (v : Byte) : (s.setData v).status = s.status := rfl
@[simp] theorem State.setData_ie (s : State) (v : Byte) : (s.setData v).ie = s.ie := rfl
@[simp] theorem State.setData_seed (s : State) (v : Byte) : (s.setData v).seed = s.seed := rfl
@[simp] theorem State.setData_srcAddr (s : State) (v : Byte) : (s.setData v).srcAddr = s.srcAddr := rfl
@[simp] theorem State.setData_srcLen (s : State) (v : Byte) : (s.setData v).srcLen = s.srcLen := rfl
@[simp] theorem State.setData_dstAddr (s : State) (v : Byte) : (s.setData v).dstAddr = s.dstAddr := rfl
@[simp] theorem State.setData_dstLen (s : State) (v : Byte) : (s.setData v).dstLen = s.dstLen := rfl
@[simp] theorem State.setData_data (s : State) (v : Byte) : (s.setData v).data = v := rfl
@[simp] theorem State.setData_ks (s : State) (v : Byte) : (s.setData v).ks = s.ks := rfl
@[simp] theorem State.setData_pend (s : State) (v : Byte) : (s.setData v).pend = s.pend := rfl
@[simp] theorem State.setData_mem (s : State) (v : Byte) : (s.setData v).mem = s.mem := rfl
@[simp] theorem State.setData_script (s : State) (v : Byte) : (s.setData v).script = s.script := rfl
@[simp] theorem State.setData_seen (s : State) (v : Byte) : (s.setData v).seen = s.seen := rfl
@[simp] theorem State.setData_draws (s : State) (v : Byte) : (s.setData v).draws = s.draws := rfl

/-! ### State.setKs -/

@[simp] theorem State.setKs_params (s : State) (v : Block) : (s.setKs v).params = s.params := rfl
@[simp] theorem State.setKs_status (s : State) (v : Block) : (s.setKs v).status = s.status := rfl
@[simp] theorem State.setKs_ie (s : State) (v : Block) : (s.setKs v).ie = s.ie := rfl
@[simp] theorem State.setKs_seed (s : State) (v : Block) : (s.setKs v).seed = s.seed := rfl
@[simp] theorem State.setKs_srcAddr (s : State) (v : Block) : (s.setKs v).srcAddr = s.srcAddr := rfl
@[simp] theorem State.setKs_srcLen (s : State) (v : Block) : (s.setKs v).srcLen = s.srcLen := rfl
@[simp] theorem State.setKs_dstAddr (s : State) (v : Block) : (s.setKs v).dstAddr = s.dstAddr := rfl
@[simp] theorem State.setKs_dstLen (s : State) (v : Block) : (s.setKs v).dstLen = s.dstLen := rfl
@[simp] theorem State.setKs_data (s : State) (v : Block) : (s.setKs v).data = s.data := rfl
@[simp] theorem State.setKs_ks (s : State) (v : Block) : (s.setKs v).ks = v := rfl
@[simp] theorem State.setKs_pend (s : State) (v : Block) : (s.setKs v).pend = s.pend := rfl
@[simp] theorem State.setKs_mem (s : State) (v : Block) : (s.setKs v).mem = s.mem := rfl
@[simp] theorem State.setKs_script (s : State) (v : Block) : (s.setKs v).script = s.script := rfl
@[simp] theorem State.setKs_seen (s : State) (v : Block) : (s.setKs v).seen = s.seen := rfl
@[simp] theorem State.setKs_draws (s : State) (v : Block) : (s.setKs v).draws = s.draws := rfl

/-! ### State.setPend -/

@[simp] theorem State.setPend_params (s : State) (v : Word) : (s.setPend v).params = s.params := rfl
@[simp] theorem State.setPend_status (s : State) (v : Word) : (s.setPend v).status = s.status := rfl
@[simp] theorem State.setPend_ie (s : State) (v : Word) : (s.setPend v).ie = s.ie := rfl
@[simp] theorem State.setPend_seed (s : State) (v : Word) : (s.setPend v).seed = s.seed := rfl
@[simp] theorem State.setPend_srcAddr (s : State) (v : Word) : (s.setPend v).srcAddr = s.srcAddr := rfl
@[simp] theorem State.setPend_srcLen (s : State) (v : Word) : (s.setPend v).srcLen = s.srcLen := rfl
@[simp] theorem State.setPend_dstAddr (s : State) (v : Word) : (s.setPend v).dstAddr = s.dstAddr := rfl
@[simp] theorem State.setPend_dstLen (s : State) (v : Word) : (s.setPend v).dstLen = s.dstLen := rfl
@[simp] theorem State.setPend_data (s : State) (v : Word) : (s.setPend v).data = s.data := rfl
@[simp] theorem State.setPend_ks (s : State) (v : Word) : (s.setPend v).ks = s.ks := rfl
@[simp] theorem State.setPend_pend (s : State) (v : Word) : (s.setPend v).pend = v := rfl
@[simp] theorem State.setPend_mem (s : State) (v : Word) : (s.setPend v).mem = s.mem := rfl
@[simp] theorem State.setPend_script (s : State) (v : Word) : (s.setPend v).script = s.script := rfl
@[simp] theorem State.setPend_seen (s : State) (v : Word) : (s.setPend v).seen = s.seen := rfl
@[simp] theorem State.setPend_draws (s : State) (v : Word) : (s.setPend v).draws = s.draws := rfl

/-! ### State.setMem -/

@[simp] theorem State.setMem_params (s : State) (v : Memory) : (s.setMem v).params = s.params := rfl
@[simp] theorem State.setMem_status (s : State) (v : Memory) : (s.setMem v).status = s.status := rfl
@[simp] theorem State.setMem_ie (s : State) (v : Memory) : (s.setMem v).ie = s.ie := rfl
@[simp] theorem State.setMem_seed (s : State) (v : Memory) : (s.setMem v).seed = s.seed := rfl
@[simp] theorem State.setMem_srcAddr (s : State) (v : Memory) : (s.setMem v).srcAddr = s.srcAddr := rfl
@[simp] theorem State.setMem_srcLen (s : State) (v : Memory) : (s.setMem v).srcLen = s.srcLen := rfl
@[simp] theorem State.setMem_dstAddr (s : State) (v : Memory) : (s.setMem v).dstAddr = s.dstAddr := rfl
@[simp] theorem State.setMem_dstLen (s : State) (v : Memory) : (s.setMem v).dstLen = s.dstLen := rfl
@[simp] theorem State.setMem_data (s : State) (v : Memory) : (s.setMem v).data = s.data := rfl
@[simp] theorem State.setMem_ks (s : State) (v : Memory) : (s.setMem v).ks = s.ks := rfl
@[simp] theorem State.setMem_pend (s : State) (v : Memory) : (s.setMem v).pend = s.pend := rfl
@[simp] theorem State.setMem_mem (s : State) (v : Memory) : (s.setMem v).mem = v := rfl
@[simp] theorem State.setMem_script (s : State) (v : Memory) : (s.setMem v).script = s.script := rfl
@[simp] theorem State.setMem_seen (s : State) (v : Memory) : (s.setMem v).seen = s.seen := rfl
@[simp] theorem State.setMem_draws (s : State) (v : Memory) : (s.setMem v).draws = s.draws := rfl

/-! ### State.setScript -/

@[simp] theorem State.setScript_params (s : State) (v : List Access) : (s.setScript v).params = s.params := rfl
@[simp] theorem State.setScript_status (s : State) (v : List Access) : (s.setScript v).status = s.status := rfl
@[simp] theorem State.setScript_ie (s : State) (v : List Access) : (s.setScript v).ie = s.ie := rfl
@[simp] theorem State.setScript_seed (s : State) (v : List Access) : (s.setScript v).seed = s.seed := rfl
@[simp] theorem State.setScript_srcAddr (s : State) (v : List Access) : (s.setScript v).srcAddr = s.srcAddr := rfl
@[simp] theorem State.setScript_srcLen (s : State) (v : List Access) : (s.setScript v).srcLen = s.srcLen := rfl
@[simp] theorem State.setScript_dstAddr (s : State) (v : List Access) : (s.setScript v).dstAddr = s.dstAddr := rfl
@[simp] theorem State.setScript_dstLen (s : State) (v : List Access) : (s.setScript v).dstLen = s.dstLen := rfl
@[simp] theorem State.setScript_data (s : State) (v : List Access) : (s.setScript v).data = s.data := rfl
@[simp] theorem State.setScript_ks (s : State) (v : List Access) : (s.setScript v).ks = s.ks := rfl
@[simp] theorem State.setScript_pend (s : State) (v : List Access) : (s.setScript v).pend = s.pend := rfl
@[simp] theorem State.setScript_mem (s : State) (v : List Access) : (s.setScript v).mem = s.mem := rfl
@[simp] theorem State.setScript_script (s : State) (v : List Access) : (s.setScript v).script = v := rfl
@[simp] theorem State.setScript_seen (s : State) (v : List Access) : (s.setScript v).seen = s.seen := rfl
@[simp] theorem State.setScript_draws (s : State) (v : List Access) : (s.setScript v).draws = s.draws := rfl

/-! ### State.setSeen -/

@[simp] theorem State.setSeen_params (s : State) (v : List Seen) : (s.setSeen v).params = s.params := rfl
@[simp] theorem State.setSeen_status (s : State) (v : List Seen) : (s.setSeen v).status = s.status := rfl
@[simp] theorem State.setSeen_ie (s : State) (v : List Seen) : (s.setSeen v).ie = s.ie := rfl
@[simp] theorem State.setSeen_seed (s : State) (v : List Seen) : (s.setSeen v).seed = s.seed := rfl
@[simp] theorem State.setSeen_srcAddr (s : State) (v : List Seen) : (s.setSeen v).srcAddr = s.srcAddr := rfl
@[simp] theorem State.setSeen_srcLen (s : State) (v : List Seen) : (s.setSeen v).srcLen = s.srcLen := rfl
@[simp] theorem State.setSeen_dstAddr (s : State) (v : List Seen) : (s.setSeen v).dstAddr = s.dstAddr := rfl
@[simp] theorem State.setSeen_dstLen (s : State) (v : List Seen) : (s.setSeen v).dstLen = s.dstLen := rfl
@[simp] theorem State.setSeen_data (s : State) (v : List Seen) : (s.setSeen v).data = s.data := rfl
@[simp] theorem State.setSeen_ks (s : State) (v : List Seen) : (s.setSeen v).ks = s.ks := rfl
@[simp] theorem State.setSeen_pend (s : State) (v : List Seen) : (s.setSeen v).pend = s.pend := rfl
@[simp] theorem State.setSeen_mem (s : State) (v : List Seen) : (s.setSeen v).mem = s.mem := rfl
@[simp] theorem State.setSeen_script (s : State) (v : List Seen) : (s.setSeen v).script = s.script := rfl
@[simp] theorem State.setSeen_seen (s : State) (v : List Seen) : (s.setSeen v).seen = v := rfl
@[simp] theorem State.setSeen_draws (s : State) (v : List Seen) : (s.setSeen v).draws = s.draws := rfl

/-! ### State.setDraws -/

@[simp] theorem State.setDraws_params (s : State) (v : Nat) : (s.setDraws v).params = s.params := rfl
@[simp] theorem State.setDraws_status (s : State) (v : Nat) : (s.setDraws v).status = s.status := rfl
@[simp] theorem State.setDraws_ie (s : State) (v : Nat) : (s.setDraws v).ie = s.ie := rfl
@[simp] theorem State.setDraws_seed (s : State) (v : Nat) : (s.setDraws v).seed = s.seed := rfl
@[simp] theorem State.setDraws_srcAddr (s : State) (v : Nat) : (s.setDraws v).srcAddr = s.srcAddr := rfl
@[simp] theorem State.setDraws_srcLen (s : State) (v : Nat) : (s.setDraws v).srcLen = s.srcLen := rfl
@[simp] theorem State.setDraws_dstAddr (s : State) (v : Nat) : (s.setDraws v).dstAddr = s.dstAddr := rfl
@[simp] theorem State.setDraws_dstLen (s : State) (v : Nat) : (s.setDraws v).dstLen = s.dstLen := rfl
@[simp] theorem State.setDraws_data (s : State) (v : Nat) : (s.setDraws v).data = s.data := rfl
@[simp] theorem State.setDraws_ks (s : State) (v : Nat) : (s.setDraws v).ks = s.ks := rfl
@[simp] theorem State.setDraws_pend (s : State) (v : Nat) : (s.setDraws v).pend = s.pend := rfl
@[simp] theorem State.setDraws_mem (s : State) (v : Nat) : (s.setDraws v).mem = s.mem := rfl
@[simp] theorem State.setDraws_script (s : State) (v : Nat) : (s.setDraws v).script = s.script := rfl
@[simp] theorem State.setDraws_seen (s : State) (v : Nat) : (s.setDraws v).seen = s.seen := rfl
@[simp] theorem State.setDraws_draws (s : State) (v : Nat) : (s.setDraws v).draws = v := rfl

/-! ### State.drawn -/

@[simp] theorem State.drawn_params (s : State) : (s.drawn).params = s.params := rfl
@[simp] theorem State.drawn_status (s : State) : (s.drawn).status = s.status := rfl
@[simp] theorem State.drawn_ie (s : State) : (s.drawn).ie = s.ie := rfl
@[simp] theorem State.drawn_seed (s : State) : (s.drawn).seed = s.seed := rfl
@[simp] theorem State.drawn_srcAddr (s : State) : (s.drawn).srcAddr = s.srcAddr := rfl
@[simp] theorem State.drawn_srcLen (s : State) : (s.drawn).srcLen = s.srcLen := rfl
@[simp] theorem State.drawn_dstAddr (s : State) : (s.drawn).dstAddr = s.dstAddr := rfl
@[simp] theorem State.drawn_dstLen (s : State) : (s.drawn).dstLen = s.dstLen := rfl
@[simp] theorem State.drawn_data (s : State) : (s.drawn).data = s.data := rfl
@[simp] theorem State.drawn_ks (s : State) : (s.drawn).ks = s.ks := rfl
@[simp] theorem State.drawn_pend (s : State) : (s.drawn).pend = s.pend := rfl
@[simp] theorem State.drawn_mem (s : State) : (s.drawn).mem = s.mem := rfl
@[simp] theorem State.drawn_script (s : State) : (s.drawn).script = s.script := rfl
@[simp] theorem State.drawn_seen (s : State) : (s.drawn).seen = s.seen := rfl
@[simp] theorem State.drawn_draws (s : State) : (s.drawn).draws = s.draws + 1 := rfl

/-! ### State.setVer -/

@[simp] theorem State.setVer_params (s : State) (v : Option Version) : (s.setVer v).params = s.params := rfl
@[simp] theorem State.setVer_status (s : State) (v : Option Version) : (s.setVer v).status = { s.status with ver := v } := rfl
@[simp] theorem State.setVer_ie (s : State) (v : Option Version) : (s.setVer v).ie = s.ie := rfl
@[simp] theorem State.setVer_seed (s : State) (v : Option Version) : (s.setVer v).seed = s.seed := rfl
@[simp] theorem State.setVer_srcAddr (s : State) (v : Option Version) : (s.setVer v).srcAddr = s.srcAddr := rfl
@[simp] theorem State.setVer_srcLen (s : State) (v : Option Version) : (s.setVer v).srcLen = s.srcLen := rfl
@[simp] theorem State.setVer_dstAddr (s : State) (v : Option Version) : (s.setVer v).dstAddr = s.dstAddr := rfl
@[simp] theorem State.setVer_dstLen (s : State) (v : Option Version) : (s.setVer v).dstLen = s.dstLen := rfl
@[simp] theorem State.setVer_data (s : State) (v : Option Version) : (s.setVer v).data = s.data := rfl
@[simp] theorem State.setVer_ks (s : State) (v : Option Version) : (s.setVer v).ks = s.ks := rfl
@[simp] theorem State.setVer_pend (s : State) (v : Option Version) : (s.setVer v).pend = s.pend := rfl
@[simp] theorem State.setVer_mem (s : State) (v : Option Version) : (s.setVer v).mem = s.mem := rfl
@[simp] theorem State.setVer_script (s : State) (v : Option Version) : (s.setVer v).script = s.script := rfl
@[simp] theorem State.setVer_seen (s : State) (v : Option Version) : (s.setVer v).seen = s.seen := rfl
@[simp] theorem State.setVer_draws (s : State) (v : Option Version) : (s.setVer v).draws = s.draws := rfl

/-! ### State.writeBytes -/

@[simp] theorem State.writeBytes_params (s : State) (a : Nat) (bytes : List Byte) : (s.writeBytes a bytes).params = s.params := rfl
@[simp] theorem State.writeBytes_status (s : State) (a : Nat) (bytes : List Byte) : (s.writeBytes a bytes).status = s.status := rfl
@[simp] theorem State.writeBytes_ie (s : State) (a : Nat) (bytes : List Byte) : (s.writeBytes a bytes).ie = s.ie := rfl
@[simp] theorem State.writeBytes_seed (s : State) (a : Nat) (bytes : List Byte) : (s.writeBytes a bytes).seed = s.seed := rfl
@[simp] theorem State.writeBytes_srcAddr (s : State) (a : Nat) (bytes : List Byte) : (s.writeBytes a bytes).srcAddr = s.srcAddr := rfl
@[simp] theorem State.writeBytes_srcLen (s : State) (a : Nat) (bytes : List Byte) : (s.writeBytes a bytes).srcLen = s.srcLen := rfl
@[simp] theorem State.writeBytes_dstAddr (s : State) (a : Nat) (bytes : List Byte) : (s.writeBytes a bytes).dstAddr = s.dstAddr := rfl
@[simp] theorem State.writeBytes_dstLen (s : State) (a : Nat) (bytes : List Byte) : (s.writeBytes a bytes).dstLen = s.dstLen := rfl
@[simp] theorem State.writeBytes_data (s : State) (a : Nat) (bytes : List Byte) : (s.writeBytes a bytes).data = s.data := rfl
@[simp] theorem State.writeBytes_ks (s : State) (a : Nat) (bytes : List Byte) : (s.writeBytes a bytes).ks = s.ks := rfl
@[simp] theorem State.writeBytes_pend (s : State) (a : Nat) (bytes : List Byte) : (s.writeBytes a bytes).pend = s.pend := rfl
@[simp] theorem State.writeBytes_mem (s : State) (a : Nat) (bytes : List Byte) : (s.writeBytes a bytes).mem = s.mem.writeBytes a bytes := rfl
@[simp] theorem State.writeBytes_script (s : State) (a : Nat) (bytes : List Byte) : (s.writeBytes a bytes).script = s.script := rfl
@[simp] theorem State.writeBytes_seen (s : State) (a : Nat) (bytes : List Byte) : (s.writeBytes a bytes).seen = s.seen := rfl
@[simp] theorem State.writeBytes_draws (s : State) (a : Nat) (bytes : List Byte) : (s.writeBytes a bytes).draws = s.draws := rfl

/-! ### State.writeBlock -/

@[simp] theorem State.writeBlock_params (s : State) (a : Nat) (X : Block) : (s.writeBlock a X).params = s.params := rfl
@[simp] theorem State.writeBlock_status (s : State) (a : Nat) (X : Block) : (s.writeBlock a X).status = s.status := rfl
@[simp] theorem State.writeBlock_ie (s : State) (a : Nat) (X : Block) : (s.writeBlock a X).ie = s.ie := rfl
@[simp] theorem State.writeBlock_seed (s : State) (a : Nat) (X : Block) : (s.writeBlock a X).seed = s.seed := rfl
@[simp] theorem State.writeBlock_srcAddr (s : State) (a : Nat) (X : Block) : (s.writeBlock a X).srcAddr = s.srcAddr := rfl
@[simp] theorem State.writeBlock_srcLen (s : State) (a : Nat) (X : Block) : (s.writeBlock a X).srcLen = s.srcLen := rfl
@[simp] theorem State.writeBlock_dstAddr (s : State) (a : Nat) (X : Block) : (s.writeBlock a X).dstAddr = s.dstAddr := rfl
@[simp] theorem State.writeBlock_dstLen (s : State) (a : Nat) (X : Block) : (s.writeBlock a X).dstLen = s.dstLen := rfl
@[simp] theorem State.writeBlock_data (s : State) (a : Nat) (X : Block) : (s.writeBlock a X).data = s.data := rfl
@[simp] theorem State.writeBlock_ks (s : State) (a : Nat) (X : Block) : (s.writeBlock a X).ks = s.ks := rfl
@[simp] theorem State.writeBlock_pend (s : State) (a : Nat) (X : Block) : (s.writeBlock a X).pend = s.pend := rfl
@[simp] theorem State.writeBlock_mem (s : State) (a : Nat) (X : Block) : (s.writeBlock a X).mem = s.mem.writeBytes a X.toList := rfl
@[simp] theorem State.writeBlock_script (s : State) (a : Nat) (X : Block) : (s.writeBlock a X).script = s.script := rfl
@[simp] theorem State.writeBlock_seen (s : State) (a : Nat) (X : Block) : (s.writeBlock a X).seen = s.seen := rfl
@[simp] theorem State.writeBlock_draws (s : State) (a : Nat) (X : Block) : (s.writeBlock a X).draws = s.draws := rfl

/-! ### State.issue -/

@[simp] theorem State.issue_params (s : State) (v : Word) : (s.issue v).params = s.params := rfl
@[simp] theorem State.issue_status (s : State) (v : Word) : (s.issue v).status = { s.status with busy := true, done := false } := rfl
@[simp] theorem State.issue_ie (s : State) (v : Word) : (s.issue v).ie = s.ie := rfl
@[simp] theorem State.issue_seed (s : State) (v : Word) : (s.issue v).seed = s.seed := rfl
@[simp] theorem State.issue_srcAddr (s : State) (v : Word) : (s.issue v).srcAddr = s.srcAddr := rfl
@[simp] theorem State.issue_srcLen (s : State) (v : Word) : (s.issue v).srcLen = s.srcLen := rfl
@[simp] theorem State.issue_dstAddr (s : State) (v : Word) : (s.issue v).dstAddr = s.dstAddr := rfl
@[simp] theorem State.issue_dstLen (s : State) (v : Word) : (s.issue v).dstLen = s.dstLen := rfl
@[simp] theorem State.issue_data (s : State) (v : Word) : (s.issue v).data = s.data := rfl
@[simp] theorem State.issue_ks (s : State) (v : Word) : (s.issue v).ks = s.ks := rfl
@[simp] theorem State.issue_pend (s : State) (v : Word) : (s.issue v).pend = v := rfl
@[simp] theorem State.issue_mem (s : State) (v : Word) : (s.issue v).mem = s.mem := rfl
@[simp] theorem State.issue_script (s : State) (v : Word) : (s.issue v).script = s.script := rfl
@[simp] theorem State.issue_seen (s : State) (v : Word) : (s.issue v).seen = s.seen := rfl
@[simp] theorem State.issue_draws (s : State) (v : Word) : (s.issue v).draws = s.draws := rfl

/-! ### State.complete -/

@[simp] theorem State.complete_params (s : State) (c : Code) : (s.complete c).params = s.params := rfl
@[simp] theorem State.complete_status (s : State) (c : Code) : (s.complete c).status = { s.status with err := c, busy := false, done := true } := rfl
@[simp] theorem State.complete_ie (s : State) (c : Code) : (s.complete c).ie = s.ie := rfl
@[simp] theorem State.complete_seed (s : State) (c : Code) : (s.complete c).seed = s.seed := rfl
@[simp] theorem State.complete_srcAddr (s : State) (c : Code) : (s.complete c).srcAddr = s.srcAddr := rfl
@[simp] theorem State.complete_srcLen (s : State) (c : Code) : (s.complete c).srcLen = s.srcLen := rfl
@[simp] theorem State.complete_dstAddr (s : State) (c : Code) : (s.complete c).dstAddr = s.dstAddr := rfl
@[simp] theorem State.complete_dstLen (s : State) (c : Code) : (s.complete c).dstLen = s.dstLen := rfl
@[simp] theorem State.complete_data (s : State) (c : Code) : (s.complete c).data = s.data := rfl
@[simp] theorem State.complete_ks (s : State) (c : Code) : (s.complete c).ks = s.ks := rfl
@[simp] theorem State.complete_pend (s : State) (c : Code) : (s.complete c).pend = s.pend := rfl
@[simp] theorem State.complete_mem (s : State) (c : Code) : (s.complete c).mem = s.mem := rfl
@[simp] theorem State.complete_script (s : State) (c : Code) : (s.complete c).script = s.script := rfl
@[simp] theorem State.complete_seen (s : State) (c : Code) : (s.complete c).seen = s.seen := rfl
@[simp] theorem State.complete_draws (s : State) (c : Code) : (s.complete c).draws = s.draws := rfl

/-! ### State.platformReset -/

@[simp] theorem State.platformReset_params (s : State) : (s.platformReset).params = s.params := rfl
@[simp] theorem State.platformReset_status (s : State) : (s.platformReset).status = Status.reset := rfl
@[simp] theorem State.platformReset_ie (s : State) : (s.platformReset).ie = false := rfl
@[simp] theorem State.platformReset_seed (s : State) : (s.platformReset).seed = 0 := rfl
@[simp] theorem State.platformReset_srcAddr (s : State) : (s.platformReset).srcAddr = 0 := rfl
@[simp] theorem State.platformReset_srcLen (s : State) : (s.platformReset).srcLen = 0 := rfl
@[simp] theorem State.platformReset_dstAddr (s : State) : (s.platformReset).dstAddr = 0 := rfl
@[simp] theorem State.platformReset_dstLen (s : State) : (s.platformReset).dstLen = 0 := rfl
@[simp] theorem State.platformReset_data (s : State) : (s.platformReset).data = 0 := rfl
@[simp] theorem State.platformReset_ks (s : State) : (s.platformReset).ks = Vector.replicate 256 0 := rfl
@[simp] theorem State.platformReset_pend (s : State) : (s.platformReset).pend = Config.freeWord s.params.regBase s.draws := rfl
@[simp] theorem State.platformReset_mem (s : State) : (s.platformReset).mem = s.mem := rfl
@[simp] theorem State.platformReset_script (s : State) : (s.platformReset).script = s.script := rfl
@[simp] theorem State.platformReset_seen (s : State) : (s.platformReset).seen = s.seen := rfl
@[simp] theorem State.platformReset_draws (s : State) : (s.platformReset).draws = s.draws + 1 := rfl

end Sys2Proof.Machine
end

