-- ==== Sys2Proof/Laws/Ops.lean ====
section
/-!
SUPPORT. One lemma for each shared operation: what it answers, in every case.
-/
namespace Sys2Proof.Machine

@[simp] theorem finish_eq (c : Code) (s : State) : finish c s = .next (s.complete c) := rfl

@[simp] theorem State.readBytes_eq (s : State) (a n : Nat) : s.readBytes a n = s.mem.readBytes a n := rfl

/-- A byte of a block operand is the byte of memory it was read from. -/
@[simp] theorem State.readBlock_getElem (s : State) (a i : Nat) (h : i < 256) :
    (s.readBlock a)[i] = s.mem.read (a + i) := by
  simp [State.readBlock, h]

/-- What a byte reads as after a block is written. -/
theorem State.writeBlock_read (s : State) (a x : Nat) (X : Block) :
    (s.writeBlock a X).mem.read x =
      if h : a ≤ x ∧ x < a + 256 then X[x - a]'(by omega) else s.mem.read x := by
  rw [State.writeBlock_mem, Memory.read_writeBytes]
  by_cases h : a ≤ x ∧ x < a + 256
  · have hx : x - a < 256 := by omega
    simp [h, hx, List.getD_eq_getElem?_getD]
  · rw [dif_neg h, if_neg (by simpa using h)]

/-- Byte `i` of a block just written. -/
theorem State.writeBlock_read_inside (s : State) (a i : Nat) (X : Block) (h : i < 256) :
    (s.writeBlock a X).mem.read (a + i) = X[i] := by
  rw [State.writeBlock_read, dif_pos (by omega)]
  simp

/-- A region of length 256 or 32 is valid exactly when it ends inside memory. -/
theorem blockOperand_valid (s : State) :
    (blockOperand s).Valid s.params ↔ s.dstAddr.toNat + 256 ≤ s.params.memSize := by
  simp [Region.Valid, blockOperand, blockLen]

theorem ivOperand_valid (s : State) :
    (ivOperand s).Valid s.params ↔ s.srcAddr.toNat + 32 ≤ s.params.memSize := by
  simp [Region.Valid, ivOperand, ivLen]

/-- A block command whose operand fits writes the block and KS and completes. -/
theorem onBlock_of_fits (f : Block → Block → Block × Block) (s : State)
    (h : s.dstAddr.toNat + 256 ≤ s.params.memSize) :
    onBlock f s = .next (((s.writeBlock s.dstAddr.toNat (f (s.readBlock s.dstAddr.toNat) s.ks).1).setKs
      (f (s.readBlock s.dstAddr.toNat) s.ks).2).complete .ok) := by
  unfold onBlock
  rw [if_pos ((blockOperand_valid s).2 h)]
  rfl

/-- A block command whose operand does not fit writes nothing but STATUS. -/
theorem onBlock_of_not_fits (f : Block → Block → Block × Block) (s : State)
    (h : s.params.memSize < s.dstAddr.toNat + 256) : onBlock f s = .next (s.complete .rangeError) := by
  unfold onBlock
  rw [if_neg (by rw [blockOperand_valid]; omega)]
  rfl

/-- Everything a block command can do. -/
theorem onBlock_cases (f : Block → Block → Block × Block) (s : State) :
    (onBlock f s = .next (s.complete .rangeError)) ∨
      (s.dstAddr.toNat + 256 ≤ s.params.memSize ∧
        onBlock f s = .next (((s.writeBlock s.dstAddr.toNat (f (s.readBlock s.dstAddr.toNat) s.ks).1).setKs
          (f (s.readBlock s.dstAddr.toNat) s.ks).2).complete .ok)) := by
  by_cases h : s.dstAddr.toNat + 256 ≤ s.params.memSize
  · exact .inr ⟨h, onBlock_of_fits f s h⟩
  · exact .inl (onBlock_of_not_fits f s (by omega))

/-- The register a host access reaches has that access's offset, and only 32-bit accesses reach one. -/
theorem Reg.at_eq_none {width x : Nat} : Reg.at width x = none ↔ width ≠ 32 ∨ x % 4 ≠ 0 ∨ 0x200 ≤ x := by
  unfold Reg.at
  split
  · simp_all
  · split
    · simp_all
    · split
      · simp_all
      · simp only [List.getElem?_eq_none_iff, List.length_cons, List.length_nil]
        omega

end Sys2Proof.Machine
end

