-- ==== Sys2Proof/Laws/Transform.lean ====
section
/-!
SUPPORT. The generator, the lists of blocks and the chains: lengths, elements, and how blocks and bytes convert.
-/
namespace Sys2Proof.Machine

/-! ### The generator -/

/-- One generator step on words (R90). -/
theorem nextByte_seed (s : Word) : (nextByte s).2 = s * lcgMultiplier + lcgIncrement := by
  rw [BitVec.mul_comm, BitVec.add_comm]
  rfl

/-- The seed after a generator step, in integers (R90). -/
theorem nextByte_seed_toNat (s : Word) : (nextByte s).2.toNat = (s.toNat * 0x41C64E6D + 0x3039) % 2 ^ 32 := by
  have h : ∀ a b c : Word, (a * b + c).toNat = (a.toNat * b.toNat + c.toNat) % 2 ^ 32 := fun a b c => by
    simp [BitVec.toNat_add, BitVec.toNat_mul]
  have hm : lcgMultiplier.toNat = 0x41C64E6D := by decide
  have hi : lcgIncrement.toNat = 0x3039 := by decide
  rw [nextByte_seed, h, hm, hi]

/-- The output byte of a generator step, from the new seed (R90). -/
theorem nextByte_byte_toNat (s : Word) : (nextByte s).1.toNat = (nextByte s).2.toNat / 2 ^ 16 % 256 := by
  have h : ∀ a : Word, (outputField a).toNat = a.toNat / 2 ^ 16 % 256 := fun a => by
    simp [outputField, BitVec.extractLsb'_toNat, Nat.shiftRight_eq_div_pow]
  exact h _

theorem generate_succ (n : Nat) (s : Word) : generate (n + 1) s =
    ((nextByte s).1 :: (generate n (nextByte s).2).1, (generate n (nextByte s).2).2) := rfl

@[simp] theorem generate_length (n : Nat) (s : Word) : (generate n s).1.length = n := by
  induction n generalizing s with
  | zero => rfl
  | succ n ih => rw [generate_succ, List.length_cons, ih]

/-- The seed after `n` generator steps. -/
theorem generate_seed (n : Nat) (s : Word) : (generate n s).2 = (fun x => (nextByte x).2)^[n] s := by
  induction n generalizing s with
  | zero => rfl
  | succ n ih => rw [generate_succ, Function.iterate_succ_apply, ← ih]

/-- Byte `i` of the generated bytes is the output of step `i + 1` (R92, R100). -/
theorem generate_getD (n i : Nat) (s : Word) (h : i < n) :
    (generate n s).1.getD i 0 = (nextByte ((fun x => (nextByte x).2)^[i] s)).1 := by
  induction n generalizing s i with
  | zero => omega
  | succ n ih =>
    rw [generate_succ]
    cases i with
    | zero => rfl
    | succ i => rw [List.getD_cons_succ, ih i (nextByte s).2 (by omega), Function.iterate_succ_apply]

theorem fromSeed_fst (s : Word) : (fromSeed s).1 = fill 256 (generate 256 s).1 := by
  simp only [fromSeed]

theorem fromSeed_snd (s : Word) : (fromSeed s).2 = (generate 256 s).2 := by
  simp only [fromSeed]

/-- Byte `i` of a seed's keystream is the output of generator step `i + 1` (R100). -/
theorem fromSeed_getElem (s : Word) (i : Nat) (h : i < 256) :
    (fromSeed s).1[i] = (nextByte ((fun x => (nextByte x).2)^[i] s)).1 := by
  simp only [fromSeed_fst, fill_getElem, generate_getD 256 i s h]

/-- Byte `32 * row + col` of an IV's keystream (R101). -/
theorem fromIv_getElem (iv : Vector Byte 32) (i : Nat) (h : i < 256) :
    (fromIv iv)[i] = rotl8 (iv[i % 32]'(Nat.mod_lt _ (by decide))) (i / 32) := by
  simp only [fromIv, tabulate_getElem]

/-! ### Headers -/

/-- The header's four bytes give the seed back (R51). -/
theorem be32_be32Bytes (s : Word) :
    be32 (s.extractLsb' 24 8) (s.extractLsb' 16 8) (s.extractLsb' 8 8) (s.extractLsb' 0 8) = s := by
  unfold be32
  apply BitVec.eq_of_getLsbD_eq
  intro i h
  simp only [BitVec.getLsbD_append, BitVec.getLsbD_extractLsb']
  by_cases h0 : i < 8
  · simp [h0]
  · by_cases h1 : i - 8 < 8
    · simp [h0, h1]; congr 1; omega
    · by_cases h2 : i - 8 - 8 < 8
      · simp [h0, h1, h2]; congr 1; omega
      · simp [h0, h1, h2, show i - 8 - 8 - 8 < 8 by omega]; congr 1; omega

/-! ### Blocks and bytes -/

@[simp] theorem bytesOf_nil : bytesOf [] = [] := rfl

@[simp] theorem bytesOf_cons (X : Block) (Xs : List Block) : bytesOf (X :: Xs) = X.toList ++ bytesOf Xs := by
  simp [bytesOf]

@[simp] theorem bytesOf_length (Xs : List Block) : (bytesOf Xs).length = 256 * Xs.length := by
  induction Xs with
  | nil => rfl
  | cons X Xs ih => simp [ih]; omega

/-- Byte `i` of block `k`, in blocks laid end to end. -/
theorem bytesOf_getD (Xs : List Block) (k i : Nat) (hk : k < Xs.length) (hi : i < 256) :
    (bytesOf Xs).getD (256 * k + i) 0 = Xs[k][i] := by
  induction Xs generalizing k with
  | nil => simp at hk
  | cons X Xs ih =>
    cases k with
    | zero => simp [List.getD_eq_getElem?_getD, List.getElem?_append_left, hi]
    | succ k =>
      have h := ih k (by simpa using hk)
      have e : 256 * (k + 1) + i = 256 * k + i + 256 := by omega
      simp only [bytesOf_cons, List.getD_eq_getElem?_getD, List.getElem_cons_succ] at h ⊢
      rw [List.getElem?_append_right (by simp; omega), ← h, e]
      simp

@[simp] theorem blocksOf_length (k : Nat) (l : List Byte) : (blocksOf k l).length = k := by
  induction k generalizing l with
  | zero => rfl
  | succ k ih => simp [blocksOf, ih]

/-- Block `k` of a byte sequence starts at offset `256 * k` (R148). -/
theorem blocksOf_getElem (n k : Nat) (l : List Byte) (h : k < (blocksOf n l).length) :
    (blocksOf n l)[k] = fill 256 (l.drop (256 * k)) := by
  induction n generalizing k l with
  | zero => simp at h
  | succ n ih =>
    cases k with
    | zero => simp [blocksOf]
    | succ k =>
      simp only [blocksOf, List.getElem_cons_succ]
      rw [ih k _ (by simpa [blocksOf] using h), List.drop_drop]
      congr 2; omega

/-- Byte `i` of block `k` of a byte sequence. -/
theorem blocksOf_getElem_byte (n k i : Nat) (l : List Byte) (h : k < (blocksOf n l).length) (hi : i < 256) :
    (blocksOf n l)[k][i] = l.getD (256 * k + i) 0 := by
  rw [blocksOf_getElem n k l h]
  simp [List.getD_eq_getElem?_getD]

/-- Cutting bytes that are blocks laid end to end gives the blocks back. -/
theorem blocksOf_bytesOf (Xs : List Block) (l : List Byte) : blocksOf Xs.length (bytesOf Xs ++ l) = Xs := by
  induction Xs with
  | nil => rfl
  | cons X Xs ih =>
    simp only [List.length_cons, blocksOf, bytesOf_cons, List.append_assoc]
    rw [fill_append_toList]
    congr 1
    rw [List.drop_left' (Vector.length_toList (xs := X)), ih]

/-- Laying the blocks of a byte sequence of `256 * k` bytes end to end gives the sequence back. -/
theorem bytesOf_blocksOf (k : Nat) (l : List Byte) (h : l.length = 256 * k) : bytesOf (blocksOf k l) = l := by
  apply List.ext_getElem
  · simp [h]
  · intro x h1 h2
    have hx : x = 256 * (x / 256) + x % 256 := by omega
    have hk : x / 256 < k := by omega
    have e := bytesOf_getD (blocksOf k l) (x / 256) (x % 256) (by simpa using hk) (by omega)
    rw [blocksOf_getElem_byte _ _ _ _ (by simpa using hk) (by omega), ← hx] at e
    rwa [← List.getElem_eq_getD (h := h1), ← List.getElem_eq_getD (h := h2)] at e

/-! ### Steps -/

theorem tap_prePerm {p : Params} (h : p.chainTap = .prePerm) (C S : Block) : tap p C S = C := by
  simp only [tap, h]

theorem tap_postPerm {p : Params} (h : p.chainTap = .postPerm) (C S : Block) : tap p C S = S := by
  simp only [tap, h]

/-- Byte `w` of word `j` of the block that `enc_step` stores (R136). -/
theorem encStep_stored (p : Params) (X K : Block) (j w : Nat) (hj : j < 64) (hw : w < 4) :
    (encStep p X K).1[4 * j + w] =
      X[4 * p.pFwd[j].val + w]'(by have := p.pFwd[j].isLt; omega) ^^^
        K[4 * p.pFwd[j].val + w]'(by have := p.pFwd[j].isLt; omega) := by
  simp [encStep, perm_getElem_word _ _ _ _ hj hw]

theorem encStep_next (p : Params) (X K : Block) : (encStep p X K).2 = tap p (Block.xor X K) (encStep p X K).1 := rfl

/-- Byte `w` of word `j` of the block that `dec_step` recovers (R136). -/
theorem decStep_recovered (p : Params) (T : Table) (S K : Block) (j w : Nat) (hj : j < 64) (hw : w < 4) :
    (decStep p T S K).1[4 * j + w] =
      S[4 * T[j].val + w]'(by have := T[j].isLt; omega) ^^^ K[4 * j + w] := by
  simp [decStep, perm_getElem_word _ _ _ _ hj hw]

theorem decStep_next (p : Params) (T : Table) (S K : Block) : (decStep p T S K).2 = tap p (perm T S) S := rfl

/-! ### Chains -/

@[simp] theorem encChain_length (p : Params) (Xs : List Block) (K : Block) :
    (encChain p Xs K).1.length = Xs.length := by
  induction Xs generalizing K with
  | nil => rfl
  | cons X Xs ih => simp [encChain, ih]

@[simp] theorem decChain_length (p : Params) (T : Table) (Ss : List Block) (K : Block) :
    (decChain p T Ss K).1.length = Ss.length := by
  induction Ss generalizing K with
  | nil => rfl
  | cons S Ss ih => simp [decChain, ih]

/-- The keystream a chain hands to block `k`: what the blocks before it leave. -/
theorem encChain_getElem (p : Params) (Xs : List Block) (K : Block) (k : Nat) (h : k < (encChain p Xs K).1.length) :
    (encChain p Xs K).1[k] =
      (encStep p (Xs[k]'(by simpa using h)) (encChain p (Xs.take k) K).2).1 := by
  induction Xs generalizing K k with
  | nil => simp [encChain] at h
  | cons X Xs ih =>
    cases k with
    | zero => simp [encChain]
    | succ k => simpa [encChain] using ih (encStep p X K).2 k (by simpa [encChain] using h)

theorem encChain_take_succ (p : Params) (Xs : List Block) (K : Block) (k : Nat) (h : k < Xs.length) :
    (encChain p (Xs.take (k + 1)) K).2 = (encStep p Xs[k] (encChain p (Xs.take k) K).2).2 := by
  induction Xs generalizing K k with
  | nil => simp at h
  | cons X Xs ih =>
    cases k with
    | zero => simp [encChain]
    | succ k => simpa [encChain] using ih (encStep p X K).2 k (by simpa using h)

theorem decChain_getElem (p : Params) (T : Table) (Ss : List Block) (K : Block) (k : Nat)
    (h : k < (decChain p T Ss K).1.length) :
    (decChain p T Ss K).1[k] =
      (decStep p T (Ss[k]'(by simpa using h)) (decChain p T (Ss.take k) K).2).1 := by
  induction Ss generalizing K k with
  | nil => simp [decChain] at h
  | cons S Ss ih =>
    cases k with
    | zero => simp [decChain]
    | succ k => simpa [decChain] using ih (decStep p T S K).2 k (by simpa [decChain] using h)

theorem decChain_take_succ (p : Params) (T : Table) (Ss : List Block) (K : Block) (k : Nat) (h : k < Ss.length) :
    (decChain p T (Ss.take (k + 1)) K).2 = (decStep p T Ss[k] (decChain p T (Ss.take k) K).2).2 := by
  induction Ss generalizing K k with
  | nil => simp at h
  | cons S Ss ih =>
    cases k with
    | zero => simp [decChain]
    | succ k => simpa [decChain] using ih (decStep p T S K).2 k (by simpa using h)

/-! ### Lengths of the pipelines' buffers -/

/-- The padded length is a whole number of blocks, one more than the plaintext fills (R149). -/
theorem length_add_padCount (n : Nat) : n + padCount n = 256 * (n / 256 + 1) := by
  simp only [padCount, blockLen]; omega

/-- The encoded length of a non-empty plaintext (R153). -/
theorem encodedLen_of_pos {n : Nat} (h : n ≠ 0) : encodedLen n = 256 * (n / 256 + 1) + 5 := by
  rw [encodedLen, if_neg h, length_add_padCount, seedHeaderLen]

theorem paddedPayload_length (P : List Byte) : (paddedPayload P).length = 256 * (P.length / 256 + 1) := by
  simp only [paddedPayload, List.length_append, List.length_replicate, List.length_cons, List.length_nil]
  have := length_add_padCount P.length
  have : 1 ≤ padCount P.length := by simp only [padCount, blockLen]; omega
  omega

/-- Every byte of the padded payload: the plaintext, zeros, and the pad count in the last place (R76). -/
theorem paddedPayload_getD (P : List Byte) (q : Nat) :
    (paddedPayload P).getD q 0 =
      if q < P.length then P.getD q 0
      else if q + 1 = 256 * (P.length / 256 + 1) then BitVec.ofNat 8 (256 - P.length % 256)
      else 0 := by
  have h := length_add_padCount P.length
  have h1 : 1 ≤ padCount P.length := by simp only [padCount, blockLen]; omega
  simp only [paddedPayload, List.getD_eq_getElem?_getD]
  by_cases hq : q < P.length
  · simp [hq, List.getElem?_append_left]
  · rw [if_neg hq, List.getElem?_append_right (by omega)]
    by_cases hl : q + 1 = 256 * (P.length / 256 + 1)
    · rw [if_pos hl, List.getElem?_append_right (by simp; omega)]
      rw [List.length_replicate, show q - P.length - (padCount P.length - 1) = 0 by omega]
      rfl
    · rw [if_neg hl]
      by_cases hz : q - P.length < padCount P.length - 1
      · rw [List.getElem?_append_left (by simpa using hz)]
        simp [hz]
      · rw [List.getElem?_append_right (by simpa using hz)]
        rw [List.getElem?_eq_none (by simp; omega)]
        rfl

/-- The number of bytes ENCODE writes is the length its destination region has (R150). -/
theorem encodeBuffer_length (p : Params) (P : List Byte) (s : Word) (h : P.length ≠ 0) :
    (encodeBuffer p P s).bytes.length = encodedLen P.length := by
  rw [encodedLen_of_pos h]
  simp [encodeBuffer, be32Bytes, length_add_padCount, blockLen]

@[simp] theorem slice_length (B : List Byte) (a b : Nat) : (slice B a b).length = min (b - a) (B.length - a) := by
  simp [slice]

theorem slice_getD (B : List Byte) (a b i : Nat) (h : i < b - a) : (slice B a b).getD i 0 = B.getD (a + i) 0 := by
  simp [slice, List.getD_eq_getElem?_getD, h]

/-- The payload decode takes from a buffer of a known version is a whole number of blocks (R80). -/
theorem payloadLen_blocks {len : Nat} {v : Version} (h : 261 ≤ len) (hv : versionOf len = some v) :
    payloadLen v len = 256 * (payloadLen v len / 256) ∧ 256 ≤ payloadLen v len := by
  unfold versionOf at hv
  split at hv
  · cases hv; simp only [payloadLen, ivLen]; omega
  · split at hv
    · cases hv; simp only [payloadLen, ivLen]; omega
    · split at hv
      · cases hv; simp only [payloadLen, seedHeaderLen]; omega
      · cases hv

end Sys2Proof.Machine
end

