-- ==== Sys2Proof/Laws/Commands.lean ====
section
/-!
SUPPORT. Everything each command, and each step, can do: one lemma per command family and one for the step, to be cited
where a proof would otherwise unfold a meaning.
-/
namespace Sys2Proof.Machine

/-! ### The arms of exec -/

@[simp] theorem exec_lcgNext (s : State) : exec .lcgNext s = execLcgNext s := rfl
@[simp] theorem exec_ksSeed (s : State) : exec .ksSeed s = execKsSeed s := rfl
@[simp] theorem exec_ksIv (s : State) : exec .ksIv s = execKsIv s := rfl
@[simp] theorem exec_mark (s : State) : exec .mark s = execMark s := rfl
@[simp] theorem exec_shuf2 (s : State) : exec .shuf2 s = execShuf2 s := rfl
@[simp] theorem exec_unshuf1 (s : State) : exec .unshuf1 s = execUnshuf1 s := rfl
@[simp] theorem exec_unshuf2 (s : State) : exec .unshuf2 s = execUnshuf2 s := rfl
@[simp] theorem exec_encBlk (s : State) : exec .encBlk s = execEncBlk s := rfl
@[simp] theorem exec_decBlk1 (s : State) : exec .decBlk1 s = execDecBlk1 s := rfl
@[simp] theorem exec_decBlk2 (s : State) : exec .decBlk2 s = execDecBlk2 s := rfl
@[simp] theorem exec_encode (s : State) : exec .encode s = execEncode s := rfl
@[simp] theorem exec_decode (s : State) : exec .decode s = execDecode s := rfl

/-! ### The commands on registers and on one region -/

/-- LCG_NEXT always completes (R91). -/
theorem execLcgNext_eq (s : State) :
    execLcgNext s = .next (((s.setSeed (nextByte s.seed).2).setData (nextByte s.seed).1).complete .ok) := rfl

/-- KS_SEED always completes (R102). -/
theorem execKsSeed_eq (s : State) :
    execKsSeed s = .next (((s.setKs (fromSeed s.seed).1).setSeed (fromSeed s.seed).2).complete .ok) := rfl

/-- MARK always completes (R111). -/
theorem execMark_eq (s : State) : execMark s = .next ((s.setData (marker s.data)).complete .ok) := rfl

/-- KS_IV completes when its 32 bytes lie inside memory, and otherwise ends with RangeError (R103). -/
theorem execKsIv_eq (s : State) :
    execKsIv s =
      if s.srcAddr.toNat + 32 ≤ s.params.memSize then
        .next ((s.setKs (fromIv (fill 32 (s.mem.readBytes s.srcAddr.toNat 32)))).complete .ok)
      else .next (s.complete .rangeError) := by
  unfold execKsIv
  simp only [ivOperand_valid]
  rfl

/-- The permutation and chaining commands are one operation on the block operand, each with its own step. -/
theorem execShuf2_eq (s : State) : execShuf2 s = onBlock (fun X K => (perm s.params.pFwd X, K)) s := rfl
theorem execUnshuf1_eq (s : State) : execUnshuf1 s = onBlock (fun X K => (perm s.params.pInv1 X, K)) s := rfl
theorem execUnshuf2_eq (s : State) : execUnshuf2 s = onBlock (fun X K => (perm s.params.pInv2 X, K)) s := rfl
theorem execEncBlk_eq (s : State) : execEncBlk s = onBlock (encStep s.params) s := rfl
theorem execDecBlk1_eq (s : State) : execDecBlk1 s = onBlock (decStep s.params s.params.pInv1) s := rfl
theorem execDecBlk2_eq (s : State) : execDecBlk2 s = onBlock (decStep s.params s.params.pInv2) s := rfl

/-! ### ENCODE -/

/-- The state in which ENCODE of a non-empty source completes (R150). -/
def encodeResult (s : State) : State :=
  ((((((s.setDstLen 0).writeBytes s.dstAddr.toNat
      (encodeBuffer s.params (s.mem.readBytes s.srcAddr.toNat s.srcLen.toNat) s.seed).bytes).setSeed
      (encodeBuffer s.params (s.mem.readBytes s.srcAddr.toNat s.srcLen.toNat) s.seed).seed).setKs
      (encodeBuffer s.params (s.mem.readBytes s.srcAddr.toNat s.srcLen.toNat) s.seed).ks).setDstLen
      (BitVec.ofNat 32 (encodedLen s.srcLen.toNat))).complete .ok)

@[simp] theorem encodeResult_params (s : State) : (encodeResult s).params = s.params := by
  simp [encodeResult]
@[simp] theorem encodeResult_status (s : State) : (encodeResult s).status = { s.status with err := .ok, busy := false, done := true } := by
  simp [encodeResult]
@[simp] theorem encodeResult_ie (s : State) : (encodeResult s).ie = s.ie := by
  simp [encodeResult]
@[simp] theorem encodeResult_seed (s : State) : (encodeResult s).seed = (encodeBuffer s.params (s.mem.readBytes s.srcAddr.toNat s.srcLen.toNat) s.seed).seed := by
  simp [encodeResult]
@[simp] theorem encodeResult_srcAddr (s : State) : (encodeResult s).srcAddr = s.srcAddr := by
  simp [encodeResult]
@[simp] theorem encodeResult_srcLen (s : State) : (encodeResult s).srcLen = s.srcLen := by
  simp [encodeResult]
@[simp] theorem encodeResult_dstAddr (s : State) : (encodeResult s).dstAddr = s.dstAddr := by
  simp [encodeResult]
@[simp] theorem encodeResult_dstLen (s : State) : (encodeResult s).dstLen = BitVec.ofNat 32 (encodedLen s.srcLen.toNat) := by
  simp [encodeResult]
@[simp] theorem encodeResult_data (s : State) : (encodeResult s).data = s.data := by
  simp [encodeResult]
@[simp] theorem encodeResult_ks (s : State) : (encodeResult s).ks = (encodeBuffer s.params (s.mem.readBytes s.srcAddr.toNat s.srcLen.toNat) s.seed).ks := by
  simp [encodeResult]
@[simp] theorem encodeResult_pend (s : State) : (encodeResult s).pend = s.pend := by
  simp [encodeResult]
@[simp] theorem encodeResult_mem (s : State) : (encodeResult s).mem = s.mem.writeBytes s.dstAddr.toNat
      (encodeBuffer s.params (s.mem.readBytes s.srcAddr.toNat s.srcLen.toNat) s.seed).bytes := by
  simp [encodeResult]
@[simp] theorem encodeResult_script (s : State) : (encodeResult s).script = s.script := by
  simp [encodeResult]
@[simp] theorem encodeResult_seen (s : State) : (encodeResult s).seen = s.seen := by
  simp [encodeResult]
@[simp] theorem encodeResult_draws (s : State) : (encodeResult s).draws = s.draws := by
  simp [encodeResult]

/-- The checks of ENCODE in their order (R150, R188). -/
theorem execEncode_eq (s : State) :
    execEncode s =
      if ¬ (sourceOperand s).Valid s.params then .next ((s.setDstLen 0).complete .rangeError)
      else if ¬ (encodeTarget s).Valid s.params then .next ((s.setDstLen 0).complete .rangeError)
      else if (sourceOperand s).Overlaps (encodeTarget s) then .next ((s.setDstLen 0).complete .overlapError)
      else if s.srcLen.toNat = 0 then .next ((s.setDstLen 0).complete .ok)
      else .next (encodeResult s) := rfl

/-- ENCODE with regions that fit and do not overlap, on a non-empty source. -/
theorem execEncode_of_fits (s : State) (hn : s.srcLen.toNat ≠ 0) (hs : (sourceOperand s).Valid s.params)
    (hd : (encodeTarget s).Valid s.params) (ho : ¬ (sourceOperand s).Overlaps (encodeTarget s)) :
    execEncode s = .next (encodeResult s) := by
  rw [execEncode_eq, if_neg (not_not.2 hs), if_neg (not_not.2 hd), if_neg ho, if_neg hn]

/-- Everything ENCODE can do (R150). -/
theorem execEncode_cases (s : State) :
    (∃ c, (c = .rangeError ∨ c = .overlapError ∨ c = .ok ∧ s.srcLen.toNat = 0) ∧
      execEncode s = .next ((s.setDstLen 0).complete c)) ∨
    (s.srcLen.toNat ≠ 0 ∧ (sourceOperand s).Valid s.params ∧ (encodeTarget s).Valid s.params ∧
      ¬ (sourceOperand s).Overlaps (encodeTarget s) ∧ execEncode s = .next (encodeResult s)) := by
  rw [execEncode_eq]
  split
  · exact .inl ⟨_, .inl rfl, rfl⟩
  · split
    · exact .inl ⟨_, .inl rfl, rfl⟩
    · split
      · exact .inl ⟨_, .inr (.inl rfl), rfl⟩
      · split
        · exact .inl ⟨_, .inr (.inr ⟨rfl, ‹_›⟩), rfl⟩
        · exact .inr ⟨‹_›, not_not.1 ‹_›, not_not.1 ‹_›, ‹_›, rfl⟩

/-! ### DECODE -/

/-- The state from which DECODE of a source of version `v` runs the transform (R161, R163). -/
def decodeStart (s : State) (v : Option Version) : State := (s.setDstLen 0).setVer v

@[simp] theorem decodeStart_params (s : State) (v : Option Version) : (decodeStart s v).params = s.params := rfl
@[simp] theorem decodeStart_status (s : State) (v : Option Version) : (decodeStart s v).status = { s.status with ver := v } := rfl
@[simp] theorem decodeStart_ie (s : State) (v : Option Version) : (decodeStart s v).ie = s.ie := rfl
@[simp] theorem decodeStart_seed (s : State) (v : Option Version) : (decodeStart s v).seed = s.seed := rfl
@[simp] theorem decodeStart_srcAddr (s : State) (v : Option Version) : (decodeStart s v).srcAddr = s.srcAddr := rfl
@[simp] theorem decodeStart_srcLen (s : State) (v : Option Version) : (decodeStart s v).srcLen = s.srcLen := rfl
@[simp] theorem decodeStart_dstAddr (s : State) (v : Option Version) : (decodeStart s v).dstAddr = s.dstAddr := rfl
@[simp] theorem decodeStart_dstLen (s : State) (v : Option Version) : (decodeStart s v).dstLen = 0 := rfl
@[simp] theorem decodeStart_data (s : State) (v : Option Version) : (decodeStart s v).data = s.data := rfl
@[simp] theorem decodeStart_ks (s : State) (v : Option Version) : (decodeStart s v).ks = s.ks := rfl
@[simp] theorem decodeStart_pend (s : State) (v : Option Version) : (decodeStart s v).pend = s.pend := rfl
@[simp] theorem decodeStart_mem (s : State) (v : Option Version) : (decodeStart s v).mem = s.mem := rfl
@[simp] theorem decodeStart_script (s : State) (v : Option Version) : (decodeStart s v).script = s.script := rfl
@[simp] theorem decodeStart_seen (s : State) (v : Option Version) : (decodeStart s v).seen = s.seen := rfl
@[simp] theorem decodeStart_draws (s : State) (v : Option Version) : (decodeStart s v).draws = s.draws := rfl

/-- The checks of DECODE in their order (R161, R188). -/
theorem execDecode_eq (s : State) :
    execDecode s =
      if ¬ (sourceOperand s).Valid s.params then .next ((decodeStart s none).complete .rangeError)
      else if s.srcLen.toNat < 261 then .next ((decodeStart s none).complete .tooShort)
      else
        match versionOf s.srcLen.toNat with
        | none => .next ((decodeStart s none).complete .unknownVersion)
        | some v =>
          if ¬ (decodeTarget s v).Valid s.params then .next ((decodeStart s (some v)).complete .rangeError)
          else if (sourceOperand s).Overlaps (decodeTarget s v) then
            .next ((decodeStart s (some v)).complete .overlapError)
          else finishDecode (decodeStart s (some v)) s.dstAddr.toNat
            (decodeBuffer s.params (s.mem.readBytes s.srcAddr.toNat s.srcLen.toNat)) := rfl

/-- Everything DECODE can do (R161): it ends before the transform, with DST_LEN = 0 and VER alone written, or it runs it. -/
theorem execDecode_cases (s : State) :
    (∃ c v, (c = .rangeError ∨ c = .tooShort ∨ c = .unknownVersion ∨ c = .overlapError) ∧
      execDecode s = .next ((decodeStart s v).complete c)) ∨
    (∃ v, (sourceOperand s).Valid s.params ∧ 261 ≤ s.srcLen.toNat ∧ versionOf s.srcLen.toNat = some v ∧
      (decodeTarget s v).Valid s.params ∧ ¬ (sourceOperand s).Overlaps (decodeTarget s v) ∧
      execDecode s = finishDecode (decodeStart s (some v)) s.dstAddr.toNat
        (decodeBuffer s.params (s.mem.readBytes s.srcAddr.toNat s.srcLen.toNat))) := by
  rw [execDecode_eq]
  split
  · exact .inl ⟨_, _, .inl rfl, rfl⟩
  · split
    · exact .inl ⟨_, _, .inr (.inl rfl), rfl⟩
    · cases hv : versionOf s.srcLen.toNat with
      | none => exact .inl ⟨_, _, .inr (.inr (.inl rfl)), rfl⟩
      | some v =>
        simp only
        split
        · exact .inl ⟨_, _, .inl rfl, rfl⟩
        · split
          · exact .inl ⟨_, _, .inr (.inr (.inr rfl)), rfl⟩
          · exact .inr ⟨v, not_not.1 ‹_›, by omega, rfl, not_not.1 ‹_›, ‹_›, rfl⟩

/-- DECODE with regions that fit and do not overlap. -/
theorem execDecode_of_fits (s : State) {v : Version} (hs : (sourceOperand s).Valid s.params)
    (hl : 261 ≤ s.srcLen.toNat) (hv : versionOf s.srcLen.toNat = some v) (hd : (decodeTarget s v).Valid s.params)
    (ho : ¬ (sourceOperand s).Overlaps (decodeTarget s v)) :
    execDecode s = finishDecode (decodeStart s (some v)) s.dstAddr.toNat
      (decodeBuffer s.params (s.mem.readBytes s.srcAddr.toNat s.srcLen.toNat)) := by
  rw [execDecode_eq, if_neg (not_not.2 hs), if_neg (by omega), hv]
  simp only
  rw [if_neg (not_not.2 hd), if_neg ho]

/-- What `decode` returns for a buffer that is long enough and whose version is known: an integrity mismatch (v3 only), or
the block loop's result on the version's payload and first keystream (R160). -/
theorem decodeBuffer_cases (p : Params) (B : List Byte) {v : Version} (hl : 261 ≤ B.length)
    (hv : versionOf B.length = some v) :
    (v = .v1 ∧ decodeBuffer p B = decodePayload p .v1 (slice B 32 B.length) none (fromIv (fill 32 B))) ∨
    (v = .v2 ∧ decodeBuffer p B = decodePayload p .v2 (slice B 32 (B.length - 1)) none (fromIv (fill 32 B))) ∨
    (v = .v3 ∧
      ((B.getD (B.length - 1) 0 ≠ marker (nextByte (fromSeed (headerSeed B)).2).1 ∧
          decodeBuffer p B = .integrityMismatch) ∨
        (B.getD (B.length - 1) 0 = marker (nextByte (fromSeed (headerSeed B)).2).1 ∧
          decodeBuffer p B = decodePayload p .v3 (slice B 4 (B.length - 1))
            (some (nextByte (fromSeed (headerSeed B)).2).2) (fromSeed (headerSeed B)).1))) := by
  have hl' : ¬ B.length < minDecodeLen := by simpa [minDecodeLen] using hl
  unfold decodeBuffer
  rw [if_neg hl', hv]
  cases v with
  | v1 => exact .inl ⟨rfl, rfl⟩
  | v2 => exact .inr (.inl ⟨rfl, rfl⟩)
  | v3 =>
    refine .inr (.inr ⟨rfl, ?_⟩)
    by_cases h : B.getD (B.length - 1) 0 = marker (nextByte (fromSeed (headerSeed B)).2).1
    · refine .inr ⟨h, ?_⟩
      simp only
      rw [if_neg (not_not.2 h)]
      rfl
    · refine .inl ⟨h, ?_⟩
      simp only
      rw [if_pos h]

/-- The length of the payload the block loop decodes (R80, R160). -/
theorem decodedPayload_length (p : Params) (v : Version) (payload : List Byte) (K : Block)
    (h : payload.length = 256 * (payload.length / 256)) :
    (bytesOf (decChain p (inverseTable p v) (blocksOf (payload.length / blockLen) payload) K).1).length =
      payload.length := by
  rw [bytesOf_length, decChain_length, blocksOf_length]
  exact h.symm

@[simp] theorem State.setWorkingSeed_params (s : State) (w : Option Word) : (s.setWorkingSeed w).params = s.params := by
  cases w <;> rfl
@[simp] theorem State.setWorkingSeed_status (s : State) (w : Option Word) : (s.setWorkingSeed w).status = s.status := by
  cases w <;> rfl
@[simp] theorem State.setWorkingSeed_ie (s : State) (w : Option Word) : (s.setWorkingSeed w).ie = s.ie := by
  cases w <;> rfl
@[simp] theorem State.setWorkingSeed_seed (s : State) (w : Option Word) : (s.setWorkingSeed w).seed = w.getD s.seed := by
  cases w <;> rfl
@[simp] theorem State.setWorkingSeed_srcAddr (s : State) (w : Option Word) : (s.setWorkingSeed w).srcAddr = s.srcAddr := by
  cases w <;> rfl
@[simp] theorem State.setWorkingSeed_srcLen (s : State) (w : Option Word) : (s.setWorkingSeed w).srcLen = s.srcLen := by
  cases w <;> rfl
@[simp] theorem State.setWorkingSeed_dstAddr (s : State) (w : Option Word) : (s.setWorkingSeed w).dstAddr = s.dstAddr := by
  cases w <;> rfl
@[simp] theorem State.setWorkingSeed_dstLen (s : State) (w : Option Word) : (s.setWorkingSeed w).dstLen = s.dstLen := by
  cases w <;> rfl
@[simp] theorem State.setWorkingSeed_data (s : State) (w : Option Word) : (s.setWorkingSeed w).data = s.data := by
  cases w <;> rfl
@[simp] theorem State.setWorkingSeed_ks (s : State) (w : Option Word) : (s.setWorkingSeed w).ks = s.ks := by
  cases w <;> rfl
@[simp] theorem State.setWorkingSeed_pend (s : State) (w : Option Word) : (s.setWorkingSeed w).pend = s.pend := by
  cases w <;> rfl
@[simp] theorem State.setWorkingSeed_mem (s : State) (w : Option Word) : (s.setWorkingSeed w).mem = s.mem := by
  cases w <;> rfl
@[simp] theorem State.setWorkingSeed_script (s : State) (w : Option Word) : (s.setWorkingSeed w).script = s.script := by
  cases w <;> rfl
@[simp] theorem State.setWorkingSeed_seen (s : State) (w : Option Word) : (s.setWorkingSeed w).seen = s.seen := by
  cases w <;> rfl
@[simp] theorem State.setWorkingSeed_draws (s : State) (w : Option Word) : (s.setWorkingSeed w).draws = s.draws := by
  cases w <;> rfl

/-- What is written when DECODE ends (R161). -/
theorem finishDecode_eq (s : State) (d : Nat) (r : Decoded) :
    finishDecode s d r = .next
      (match r with
        | .tooShort => s.complete .tooShort
        | .unknownVersion => s.complete .unknownVersion
        | .integrityMismatch => s.complete .integrityMismatch
        | .corruptPadding _ Y w K => (((s.writeBytes d Y).setKs K).setWorkingSeed w).complete .corruptPadding
        | .ok _ Y n w K =>
          ((((s.writeBytes d Y).setKs K).setWorkingSeed w).setDstLen (BitVec.ofNat 32 n)).complete .ok) := by
  cases r <;> rfl

/-! ### The step -/

theorem State.scheduled_eq (s : State) : s.scheduled = s ∨ s.scheduled = s.setDraws (s.draws + 1) := by
  unfold State.scheduled
  split
  · exact .inr rfl
  · exact .inl rfl

/-- Everything a step can be: idle, the core's completion step, or the host's next access (R191, R196). -/
theorem step_cases (s : State) :
    (s.script = [] ∧ s.status.busy = false ∧ step s = .next s) ∨
    (s.status.busy = true ∧ step s = s.scheduled.completionStep) ∨
    (∃ a rest, s.script = a :: rest ∧ (s.status.busy = true → a ≠ .wait) ∧
      step s = (s.scheduled.setScript rest).access a) := by
  unfold step State.advance
  cases hs : s.script with
  | nil =>
    cases hb : s.status.busy with
    | false => exact .inl ⟨rfl, rfl, by simp [State.turn, hs, hb]⟩
    | true => exact .inr (.inl ⟨rfl, by simp [State.turn, hs, hb]⟩)
  | cons a rest =>
    cases hb : s.status.busy with
    | false => exact .inr (.inr ⟨a, rest, rfl, by simp, by simp [State.turn, hs, hb]⟩)
    | true =>
      by_cases hw : a = .wait
      · exact .inr (.inl ⟨rfl, by simp [State.turn, hs, hb, hw]⟩)
      · cases hc : Config.coreMovesFirst s.params.regBase s.draws with
        | true => exact .inr (.inl ⟨rfl, by simp [State.turn, hs, hb, hw, hc]⟩)
        | false => exact .inr (.inr ⟨a, rest, rfl, fun _ => hw, by simp [State.turn, hs, hb, hw, hc]⟩)

/-- Everything the completion step can do (R73, R191). -/
theorem completionStep_cases (s : State) :
    (∃ i, Sys2Proof.decode s.pend = .ok i ∧ s.completionStep = exec i s) ∨
    (∃ e, Sys2Proof.decode s.pend = .error e ∧ s.completionStep = .next (s.complete .illegalCommand)) := by
  unfold State.completionStep
  cases h : Sys2Proof.decode s.pend with
  | ok i => exact .inl ⟨i, rfl, rfl⟩
  | error e => exact .inr ⟨e, rfl, rfl⟩

/-- Everything a host access can do: it is refused, or it answers one of these states (R57, R58, R190, R210 to R215). -/
theorem access_cases (s : State) (a : Access) :
    (∃ q, s.access a = .refused q) ∨
    (∃ r width x, a = .readReg width x ∧ Reg.at width x = some r ∧ s.access a = .next (State.hostReadReg s r)) ∨
    (∃ r width x v, a = .writeReg width x v ∧ Reg.at width x = some r ∧
      s.access a = .next (State.hostWriteReg s r v)) ∨
    (∃ x, x < s.params.memSize ∧ s.access a = .next (s.hostReadByte x)) ∨
    (∃ x b, x < s.params.memSize ∧ s.status.busy = false ∧ s.access a = .next (s.setMem (s.mem.write x b))) ∨
    (a = .wait ∧ s.access a = .next s) ∨
    (a = .reset ∧ s.access a = .next s.platformReset) := by
  cases a with
  | readReg width x =>
    cases h : Reg.at width x with
    | none => exact .inl ⟨.registerAccess width x, by simp [State.access, h]⟩
    | some r => exact .inr (.inl ⟨r, width, x, rfl, h, by simp [State.access, h]⟩)
  | writeReg width x v =>
    cases h : Reg.at width x with
    | none => exact .inl ⟨.registerAccess width x, by simp [State.access, h]⟩
    | some r => exact .inr (.inr (.inl ⟨r, width, x, v, rfl, h, by simp [State.access, h]⟩))
  | readMem width x =>
    by_cases h : bufferAccessOk s.params width x
    · exact .inr (.inr (.inr (.inl ⟨x, h.2, by simp only [State.access]; rw [if_pos h]⟩)))
    · exact .inl ⟨_, by simp only [State.access]; rw [if_neg h]⟩
  | writeMem width x b =>
    by_cases h : bufferAccessOk s.params width x
    · cases hb : s.status.busy with
      | true =>
        exact .inl ⟨_, by simp only [State.access]; rw [if_neg (not_not.2 h), if_pos hb]⟩
      | false =>
        exact .inr (.inr (.inr (.inr (.inl ⟨x, b, h.2, rfl, by
          simp only [State.access]; rw [if_neg (not_not.2 h), if_neg (by simp [hb])]⟩))))
    · exact .inl ⟨_, by simp only [State.access]; rw [if_pos h]⟩
  | wait => exact .inr (.inr (.inr (.inr (.inr (.inl ⟨rfl, rfl⟩)))))
  | reset => exact .inr (.inr (.inr (.inr (.inr (.inr ⟨rfl, rfl⟩)))))

end Sys2Proof.Machine
end

