-- ==== Sys2Proof/Laws/PerInstr.lean ====
section
/-!
SUPPORT. Statements made of every instruction as syntax, one lemma per constructor.
-/
namespace Sys2Proof.Laws

/-- A well-formed command's word has its opcode in `OPC`, zero in `RSV` (R70, R71), and decodes to it. -/
def WordShape.Statement (i : Instr) : Prop :=
  i.wf = true → rsvField (encode i) = 0 ∧ opcField (encode i) = opcodeOf i ∧ decode (encode i) = .ok i

theorem WordShape.lcgNext : WordShape.Statement .lcgNext := fun _ => by decide
theorem WordShape.ksSeed : WordShape.Statement .ksSeed := fun _ => by decide
theorem WordShape.ksIv : WordShape.Statement .ksIv := fun _ => by decide
theorem WordShape.mark : WordShape.Statement .mark := fun _ => by decide
theorem WordShape.shuf2 : WordShape.Statement .shuf2 := fun _ => by decide
theorem WordShape.unshuf1 : WordShape.Statement .unshuf1 := fun _ => by decide
theorem WordShape.unshuf2 : WordShape.Statement .unshuf2 := fun _ => by decide
theorem WordShape.encBlk : WordShape.Statement .encBlk := fun _ => by decide
theorem WordShape.decBlk1 : WordShape.Statement .decBlk1 := fun _ => by decide
theorem WordShape.decBlk2 : WordShape.Statement .decBlk2 := fun _ => by decide
theorem WordShape.encode : WordShape.Statement .encode := fun _ => by decide
theorem WordShape.decode : WordShape.Statement .decode := fun _ => by decide

end Sys2Proof.Laws
end

