-- ==== Sys2Proof/Laws/Platform.lean ====
section
/-!
SUPPORT. What a platform's step can do, that a reset makes or keeps a legal platform, and that the windows of a legal
platform do not meet.
-/
namespace Sys2Proof.Machine

/-- A platform's step is one instance's step; an index past the last instance changes nothing. -/
theorem Platform.stepAt_next {P R : Platform} {k : Nat} (h : P.stepAt k = .next R) :
    (P.instances[k]? = none ∧ R = P) ∨
      ∃ s t, P.instances[k]? = some s ∧ step s = .next t ∧ R = ⟨P.instances.set k t⟩ := by
  unfold Platform.stepAt at h
  cases hk : P.instances[k]? with
  | none => exact .inl ⟨rfl, by simpa [hk] using h.symm⟩
  | some s =>
    cases hs : step s <;> simp [hk, hs] at h
    exact .inr ⟨s, _, rfl, hs, h.symm⟩

theorem Platform.reset_ok {ps : List Params} (hn : ps ≠ []) (hp : ∀ p ∈ ps, p.Ok)
    (hw : (ps.map Params.regBase).Nodup) : (Platform.reset ps).Ok where
  numInstances := by simpa [Platform.reset, Nat.one_le_iff_ne_zero] using hn
  params := by simpa [Platform.reset] using hp
  windows := by simpa [Platform.reset, Function.comp_def] using hw

theorem Platform.resetAll_ok {P : Platform} (h : P.Ok) : P.resetAll.Ok where
  numInstances := by simpa [Platform.resetAll] using h.numInstances
  params := by simpa [Platform.resetAll, State.platformReset] using h.params
  windows := by simpa [Platform.resetAll, State.platformReset, Function.comp_def] using h.windows

/-- R59, R205: aligned windows at different bases do not meet. -/
theorem Params.windows_disjoint {p q : Params} (hp : p.RegBaseOk) (hq : q.RegBaseOk) (h : p.regBase ≠ q.regBase)
    (a : Nat) : ¬ (Params.windowHolds p a ∧ Params.windowHolds q a) := by
  rintro ⟨⟨_, _⟩, _, _⟩
  simp only [Params.RegBaseOk] at hp hq
  omega

end Sys2Proof.Machine
end

