-- ==== Sys2Proof/Tests/Slice0.lean ====
section
/-!
SUPPORT. The model's own tests: ill-formed parameters, decoding, one or two vectors of 95_test_vectors.md for each command
and register rule, and for each obligation with hypotheses a concrete state that meets them. The expected values are the
spec's.
-/
namespace Sys2Proof.Tests

open Sys2Proof Sys2Proof.Machine

/-- The tables of the spec's illustrative permutation, `T[j] = 63 - j` (T6). -/
def reversal : Table := tabulate 64 fun j => j.rev

def reversed : Params := { Params.default with pFwd := reversal, pInv2 := reversal }

/-- The state after reset with operands. -/
def operands (src len dst : Word) : State := { State.reset with srcAddr := src, srcLen := len, dstAddr := dst }

/-- The state with bytes stored. -/
def loaded (s : State) (a : Nat) (bytes : List Byte) : State := { s with mem := s.mem.writeBytes a bytes }

/-- The state with a command in flight and a script. -/
def busyWith (v : Word) (script : List Access) : State :=
  { State.reset with pend := v, status := { Status.reset with busy := true }, script := script }

/-- The outcome is a next state and the test holds of it. -/
def Answers (r : Result) (test : State → Bool) : Bool :=
  match r with
  | .next t => test t
  | .fault _ => false
  | .refused _ => false

theorem Answers.next {r : Result} {test : State → Bool} (h : Answers r test = true) :
    ∃ t, r = .next t ∧ test t = true := by
  cases r with
  | next t => exact ⟨t, rfl, h⟩
  | fault f => cases f
  | refused q => cases h

/-- V-ENC-1 (T9). -/
def vEnc1 : List Byte :=
  [0x00, 0x00, 0x00, 0x01, 0x87, 0x7e, 0x81, 0x6b, 0x4b, 0xfb, 0xe2, 0xfb, 0x54, 0xf6, 0xbd, 0xdf,
   0x7c, 0x1c, 0xe1, 0x87, 0x01, 0xbf, 0x31, 0xde, 0x56, 0x72, 0x0f, 0x47, 0x67, 0x66, 0x87, 0x59,
   0xaa, 0x88, 0x3c, 0x59, 0xea, 0x56, 0x13, 0x7b, 0xd2, 0x85, 0xa1, 0xd8, 0x3c, 0x54, 0x55, 0x2f,
   0x37, 0xae, 0x65, 0x5b, 0xda, 0x02, 0x79, 0x98, 0xcc, 0xe3, 0x1a, 0x76, 0x8e, 0x5f, 0xd9, 0x99] ++
  [0x8f, 0x1f, 0x3f, 0x36, 0xee, 0x43, 0x78, 0x4d, 0x0d, 0xfa, 0xbe, 0xa6, 0xda, 0xe4, 0x86, 0x8e,
   0xdc, 0x29, 0x6d, 0x4e, 0xff, 0x56, 0xe1, 0x70, 0x20, 0xfb, 0x8f, 0xb1, 0x58, 0x05, 0x90, 0xc5,
   0x09, 0xdc, 0x53, 0xcd, 0xaa, 0x3b, 0x48, 0x99, 0x52, 0xd3, 0x52, 0x9d, 0x06, 0x9f, 0xea, 0xb5,
   0xc2, 0x06, 0x13, 0x98, 0x49, 0xb2, 0x01, 0x1e, 0xac, 0x32, 0x88, 0x31, 0x9c, 0x52, 0x46, 0x95] ++
  [0x71, 0x36, 0x8f, 0x57, 0xf6, 0x39, 0x1d, 0x16, 0xfa, 0x88, 0x74, 0xf5, 0x98, 0x7c, 0x17, 0x5c,
   0x41, 0xbb, 0x6d, 0x71, 0x8e, 0x0f, 0x70, 0x59, 0xc7, 0x01, 0x1b, 0x2f, 0x33, 0x3d, 0x91, 0xc0,
   0x1d, 0xa5, 0x0d, 0x0d, 0xab, 0x33, 0x8d, 0x7e, 0x5e, 0x8f, 0x3e, 0xe6, 0x68, 0x74, 0xa6, 0x3a,
   0xb1, 0xc3, 0x93, 0x11, 0xa8, 0x64, 0xc7, 0xdb, 0xca, 0xe0, 0x60, 0xe1, 0xf3, 0xbf, 0x09, 0x00] ++
  [0x67, 0xa2, 0xe3, 0x25, 0xa0, 0x21, 0x31, 0x87, 0xd5, 0x62, 0xc5, 0xa8, 0x4f, 0x7e, 0x2e, 0x09,
   0x6b, 0x94, 0x9f, 0xb0, 0x6d, 0xa9, 0x9e, 0x5a, 0x0b, 0x46, 0x70, 0x80, 0xb6, 0xcf, 0x47, 0x0c,
   0xa6, 0xa5, 0x2a, 0xd8, 0xac, 0xfb, 0xa0, 0xeb, 0xb7, 0x79, 0x24, 0x72, 0x23, 0x92, 0x48, 0x80,
   0xc5, 0xa6, 0xa7, 0x85, 0xb7, 0xd7, 0x8c, 0x90, 0xe4, 0xab, 0x63, 0x44, 0x52, 0x66, 0xe3, 0x9c] ++
  [0x33, 0x25, 0xf9, 0xa1, 0xaa]

/-- V-DEC-v1 (T11). -/
def vDecV1 : List Byte :=
  [0x00, 0x01, 0x02, 0x03, 0x04, 0x05, 0x06, 0x07, 0x08, 0x09, 0x0a, 0x0b, 0x0c, 0x0d, 0x0e, 0x0f,
   0x10, 0x11, 0x12, 0x13, 0x14, 0x15, 0x16, 0x17, 0x18, 0x19, 0x1a, 0x1b, 0x1c, 0x1d, 0x1e, 0x1f,
   0x48, 0x48, 0x02, 0x03, 0x04, 0x05, 0x06, 0x07, 0x08, 0x09, 0x0a, 0x0b, 0x0c, 0x0d, 0x0e, 0x0f,
   0x10, 0x11, 0x12, 0x13, 0x14, 0x15, 0x16, 0x17, 0x18, 0x19, 0x1a, 0x1b, 0x1c, 0x1d, 0x1e, 0x1f] ++
  [0x00, 0x02, 0x04, 0x06, 0x08, 0x0a, 0x0c, 0x0e, 0x10, 0x12, 0x14, 0x16, 0x18, 0x1a, 0x1c, 0x1e,
   0x20, 0x22, 0x24, 0x26, 0x28, 0x2a, 0x2c, 0x2e, 0x30, 0x32, 0x34, 0x36, 0x38, 0x3a, 0x3c, 0x3e,
   0x00, 0x04, 0x08, 0x0c, 0x10, 0x14, 0x18, 0x1c, 0x20, 0x24, 0x28, 0x2c, 0x30, 0x34, 0x38, 0x3c,
   0x40, 0x44, 0x48, 0x4c, 0x50, 0x54, 0x58, 0x5c, 0x60, 0x64, 0x68, 0x6c, 0x70, 0x74, 0x78, 0x7c] ++
  [0x00, 0x08, 0x10, 0x18, 0x20, 0x28, 0x30, 0x38, 0x40, 0x48, 0x50, 0x58, 0x60, 0x68, 0x70, 0x78,
   0x80, 0x88, 0x90, 0x98, 0xa0, 0xa8, 0xb0, 0xb8, 0xc0, 0xc8, 0xd0, 0xd8, 0xe0, 0xe8, 0xf0, 0xf8,
   0x00, 0x10, 0x20, 0x30, 0x40, 0x50, 0x60, 0x70, 0x80, 0x90, 0xa0, 0xb0, 0xc0, 0xd0, 0xe0, 0xf0,
   0x01, 0x11, 0x21, 0x31, 0x41, 0x51, 0x61, 0x71, 0x81, 0x91, 0xa1, 0xb1, 0xc1, 0xd1, 0xe1, 0xf1] ++
  [0x00, 0x20, 0x40, 0x60, 0x80, 0xa0, 0xc0, 0xe0, 0x01, 0x21, 0x41, 0x61, 0x81, 0xa1, 0xc1, 0xe1,
   0x02, 0x22, 0x42, 0x62, 0x82, 0xa2, 0xc2, 0xe2, 0x03, 0x23, 0x43, 0x63, 0x83, 0xa3, 0xc3, 0xe3,
   0x00, 0x40, 0x80, 0xc0, 0x01, 0x41, 0x81, 0xc1, 0x02, 0x42, 0x82, 0xc2, 0x03, 0x43, 0x83, 0xc3,
   0x04, 0x44, 0x84, 0xc4, 0x05, 0x45, 0x85, 0xc5, 0x06, 0x46, 0x86, 0xc6, 0x07, 0x47, 0x87, 0xc7] ++
  [0x00, 0x80, 0x01, 0x81, 0x02, 0x82, 0x03, 0x83, 0x04, 0x84, 0x05, 0x85, 0x06, 0x86, 0x07, 0x87,
   0x08, 0x88, 0x09, 0x89, 0x0a, 0x8a, 0x0b, 0x8b, 0x0c, 0x8c, 0x0d, 0x8d, 0x0e, 0x8e, 0x0f, 0x71]

/-- The block 41, 254 bytes 00, ff (T7). -/
def blockA : List Byte := 0x41 :: (List.replicate 254 0 ++ [0xff])

/-- The bytes 00, 01, ... (T6). -/
def counting (n : Nat) : List Byte := (List.range n).map (BitVec.ofNat 8)

/-! ### Ill-formed parameters -/

theorem test_wf_default : Params.default.Ok := by
  constructor <;> decide +kernel

theorem test_wf_reversed : reversed.Ok := by
  constructor <;> decide +kernel

theorem test_wf_no_memory : ¬ { Params.default with memSize := 0 }.Ok :=
  fun h => absurd h.memSize (by decide)

theorem test_wf_memory_too_large : ¬ { Params.default with memSize := 2 ^ 32 + 1 }.Ok :=
  fun h => absurd h.memSize (by decide)

theorem test_wf_unaligned_window : ¬ { Params.default with regBase := 0x100 }.Ok :=
  fun h => absurd h.regBase (by decide)

theorem test_wf_fwd_not_bijective : ¬ { Params.default with pFwd := Vector.replicate 64 0 }.Ok :=
  fun h => absurd h.fwd (by decide +kernel)

theorem test_wf_inv1_not_bijective : ¬ { Params.default with pInv1 := Vector.replicate 64 0 }.Ok :=
  fun h => absurd h.inv1 (by decide +kernel)

theorem test_wf_inv2_not_bijective : ¬ { Params.default with pInv2 := Vector.replicate 64 0 }.Ok :=
  fun h => absurd h.inv2 (by decide +kernel)

theorem test_wf_inv2_not_inverse : ¬ { Params.default with pFwd := reversal }.Ok :=
  fun h => absurd h.inverse (by decide +kernel)

/-- Two instances with windows side by side. -/
def twoInstances : List Params := [Params.default, { reversed with regBase := 0x200 }]

theorem test_platform_ok : (Platform.reset twoInstances).Ok :=
  Platform.reset_ok (by decide)
    (by simpa [twoInstances] using ⟨test_wf_default, ⟨test_wf_reversed.memSize, by decide, test_wf_reversed.fwd,
      test_wf_reversed.inv1, test_wf_reversed.inv2, test_wf_reversed.inverse⟩⟩) (by decide)

theorem test_platform_no_instance : ¬ (Platform.reset []).Ok := fun h => absurd h.numInstances (by decide)

theorem test_platform_one_window_twice : ¬ (Platform.reset [Params.default, Params.default]).Ok :=
  fun h => absurd h.windows (by decide)

theorem test_platform_bad_instance : ¬ (Platform.reset [{ Params.default with memSize := 0 }]).Ok :=
  fun h => absurd (h.params _ (List.mem_singleton.mpr rfl)) test_wf_no_memory

/-! ### Decoding: each row of R71 bit by bit, and the illegal words of T15 -/

theorem test_decode_lcgNext :
    decode 0b00000000000000000000000000000001#32 = .ok .lcgNext := by decide

theorem test_decode_ksSeed :
    decode 0b00000000000000000000000000000010#32 = .ok .ksSeed := by decide

theorem test_decode_ksIv :
    decode 0b00000000000000000000000000000011#32 = .ok .ksIv := by decide

theorem test_decode_mark :
    decode 0b00000000000000000000000000000100#32 = .ok .mark := by decide

theorem test_decode_shuf2 :
    decode 0b00000000000000000000000000000101#32 = .ok .shuf2 := by decide

theorem test_decode_unshuf1 :
    decode 0b00000000000000000000000000000110#32 = .ok .unshuf1 := by decide

theorem test_decode_unshuf2 :
    decode 0b00000000000000000000000000000111#32 = .ok .unshuf2 := by decide

theorem test_decode_encBlk :
    decode 0b00000000000000000000000000001000#32 = .ok .encBlk := by decide

theorem test_decode_decBlk1 :
    decode 0b00000000000000000000000000001001#32 = .ok .decBlk1 := by decide

theorem test_decode_decBlk2 :
    decode 0b00000000000000000000000000001010#32 = .ok .decBlk2 := by decide

theorem test_decode_encode :
    decode 0b00000000000000000000000000010000#32 = .ok .encode := by decide

theorem test_decode_decode :
    decode 0b00000000000000000000000000010001#32 = .ok .decode := by decide

/-- V-ILL-1 to V-ILL-5 (T15). -/
theorem test_decode_unassigned :
    decode 0x00000000 = .error (.unassignedOpcode 0x00) ∧ decode 0x0000000B = .error (.unassignedOpcode 0x0B) ∧
    decode 0x0000000F = .error (.unassignedOpcode 0x0F) ∧ decode 0x00000012 = .error (.unassignedOpcode 0x12) ∧
    decode 0x000000FF = .error (.unassignedOpcode 0xFF) := by decide

/-- V-ILL-6 and V-ILL-7 (T15). -/
theorem test_decode_reserved_bits :
    decode 0x00000101 = .error (.reservedBits 1) ∧ decode 0x80000010 = .error (.reservedBits 0x800000) := by decide

theorem test_decodeTableWord :
    decodeTableWord 32 0x11 = some .decode ∧ decodeTableWord 8 0x111 = some .decode ∧
    decodeTableWord 32 0x111 = none ∧ decodeTableWord 64 (2 ^ 32 + 1) = none := by decide

theorem test_withFetchWord_runs_mark :
    Answers (step (State.reset.withFetchWord 32 4)) (fun t => t.data = 0x08 && t.status.done) = true := by
  decide +kernel

/-! ### Commands -/

/-- T3: SEED 0x00000001 and 0xFFFFFFFF. -/
theorem test_lcgNext :
    Answers (exec .lcgNext { State.reset with seed := 1 }) (fun t => t.seed = 0x41C67EA6 && t.data = 0xC6) = true ∧
    Answers (exec .lcgNext { State.reset with seed := 0xFFFFFFFF })
      (fun t => t.seed = 0xBE39E1CC && t.data = 0x39) = true := by
  decide +kernel

/-- R105: KS_SEED from seed 1. -/
theorem test_ksSeed :
    Answers (exec .ksSeed { State.reset with seed := 1 }) (fun t =>
      t.seed = 0xDD5ED701 && t.ks[0] = 0xc6 && t.ks[1] = 0x7e && t.ks[15] = 0x87 && t.ks[255] = 0x5e) = true := by
  decide +kernel

/-- R103: iv[col] = col. -/
theorem test_ksIv :
    Answers (exec .ksIv (loaded State.reset 0 (counting 32))) (fun t =>
      t.ks[1] = 0x01 && t.ks[33] = 0x02 && t.ks[63] = 0x3E && t.ks[67] = 0x0C && t.ks[225] = 0x80 &&
        t.ks[255] = 0x8F) = true := by
  decide +kernel

/-- R103: one byte past the end of memory. -/
theorem test_ksIv_rangeError :
    Answers (exec .ksIv (operands 0xFE1 0 0)) (fun t => t.status.err = .rangeError) = true ∧
    Answers (exec .ksIv (operands 0xFE0 0 0)) (fun t => t.status.err = .ok) = true := by
  decide +kernel

/-- T5: V-MK-4, V-MK-7, V-MK-10 and V-MK-12. -/
theorem test_mark :
    [0x0C, 0xA5, 0xFF, 0xDC].map (fun b => marker b) = [0x08, 0xA9, 0xFB, 0xD8] ∧
    Answers (exec .mark { State.reset with data := 0xA5 }) (fun t => t.data = 0xA9) = true := by
  decide +kernel

/-- V-PRM-2 (T6): bytes keep their order inside each word. -/
theorem test_shuf2 :
    Answers (exec .shuf2 { loaded (operands 0 0 0x100) 0x100 (counting 256) with params := reversed }) (fun t =>
      (t.mem.readBytes 0x100 8) = [0xfc, 0xfd, 0xfe, 0xff, 0xf8, 0xf9, 0xfa, 0xfb]) = true := by
  decide +kernel

/-- V-PRM-4 and V-PRM-5 (T6). -/
theorem test_permutations_range :
    [Instr.shuf2, .unshuf1, .unshuf2].all (fun i =>
      Answers (exec i (operands 0 0 0xF01)) (fun t => t.status.err = .rangeError) &&
      Answers (exec i (operands 0 0 0xF00)) (fun t => t.status.err = .ok)) = true := by
  decide +kernel

/-- R124: UNSHUF1 takes its own table. -/
theorem test_unshuf1 :
    Answers (exec .unshuf1 { loaded (operands 0 0 0x100) 0x100 (counting 256) with
        params := { Params.default with pInv1 := reversal } }) (fun t =>
      (t.mem.readBytes 0x100 4) = [0xfc, 0xfd, 0xfe, 0xff]) = true := by
  decide +kernel

/-- V-PRM-3 (T6): the block whose word 0 SHUF2 made fc fd fe ff. -/
theorem test_unshuf2 :
    Answers (exec .unshuf2 { loaded (operands 0 0 0x100) 0x1FC [0, 1, 2, 3] with params := reversed }) (fun t =>
      (t.mem.readBytes 0x100 4) = [0, 1, 2, 3]) = true := by
  decide +kernel

/-- V-BLK-1 (T7). -/
theorem test_encBlk :
    Answers (exec .encBlk { loaded (operands 0 0 0x400) 0x400 blockA with ks := (fromSeed 1).1 }) (fun t =>
      (t.mem.readBytes 0x400 4) = [0x87, 0x7e, 0x81, 0x6b] && kswWord t.ks 0 = 0x6B817E87 &&
        kswWord t.ks 63 = 0xA1F92533) = true := by
  decide +kernel

/-- V-BLK-5 (T7). -/
theorem test_decBlk1 :
    Answers (exec .decBlk1 { loaded (operands 0 0 0x20) 0 vDecV1 with ks := fromIv (fill 32 (counting 32)) })
      (fun t => (t.mem.readBytes 0x20 2) = [0x48, 0x49] && kswWord t.ks 0 = 0x03024848) = true := by
  decide +kernel

/-- V-BLK-2 (T7). -/
theorem test_decBlk2 :
    Answers (exec .decBlk2 { loaded (operands 0 0 0x400) 0x3FC vEnc1 with ks := (fromSeed 1).1 }) (fun t =>
      (t.mem.readBytes 0x400 1) = [0x41] && kswWord t.ks 0 = 0x6B817E87 && kswWord t.ks 63 = 0xA1F92533) = true := by
  decide +kernel

/-- V-ENC-1 (T9). -/
theorem test_encode :
    Answers (exec .encode { loaded (operands 0 1 0x100) 0 [0x41] with seed := 1 }) (fun t =>
      t.dstLen = 261 && t.seed = 0xB2AA09A6 && kswWord t.ks 0 = 0x6B817E87 &&
        (t.mem.readBytes 0x100 8) = [0x00, 0x00, 0x00, 0x01, 0x87, 0x7e, 0x81, 0x6b]) = true := by
  decide +kernel

/-- V-ERR-E4 and V-ERR-E7 (T10). -/
theorem test_encode_overlap_and_empty :
    Answers (exec .encode (operands 0 10 9)) (fun t => t.status.err = .overlapError) = true ∧
    Answers (exec .encode (operands 0xFFFFFFFF 0 0xFFFFFFFF)) (fun t => t.status.err = .ok && t.dstLen = 0) = true := by
  decide +kernel

/-- The last bytes of V-ENC-1 (T9): the transformed pad count, and the marker. -/
theorem test_encodeBuffer :
    (encodeBuffer Params.default [0x41] 1).bytes.getD 259 0 = 0xa1 ∧
    (encodeBuffer Params.default [0x41] 1).bytes.getD 260 0 = 0xaa := by
  decide +kernel

/-- V-DEC-1 (T11). -/
theorem test_decode_v3 :
    Answers (exec .decode (loaded (operands 0x100 261 0x300) 0x100 vEnc1)) (fun t =>
      t.status.word = 0x00000302 && t.dstLen = 1 && t.seed = 0xB2AA09A6 && (t.mem.readBytes 0x300 1) = [0x41]) = true := by
  decide +kernel

/-- V-DEC-5 (T11). -/
theorem test_decode_v1 :
    Answers (exec .decode (loaded (operands 0 288 0x200) 0 vDecV1)) (fun t =>
      t.status.word = 0x00000102 && t.dstLen = 2 && t.seed = 0 && (t.mem.readBytes 0x200 2) = [0x48, 0x49]) = true := by
  decide +kernel

/-! ### Registers and the host -/

/-- V-REG-5 (T16). -/
theorem test_status_write_one_to_clear :
    Status.word { busy := false, done := true, ovr := true, err := .illegalCommand, ver := some .v3 } = 0x00000376 ∧
    (Status.writeOneToClear { busy := false, done := true, ovr := true, err := .illegalCommand, ver := some .v3 }
      0x00000002).word = 0x00000374 := by
  decide

/-- V-REG-9 and the default CFG (T16). -/
theorem test_cfg :
    cfgWord { reversed with chainTap := .postPerm, pad0Mode := .zeroIsCorrupt } = 0x00000003 ∧
    cfgWord Params.default = 0x00000004 := by
  decide +kernel

/-- V-REG-4 (T16). -/
theorem test_ksw_write :
    Answers (State.reset.access (.writeReg 32 0x104 0x44332211)) (fun t =>
      t.ks[4] = 0x11 && t.ks[5] = 0x22 && t.ks[6] = 0x33 && t.ks[7] = 0x44 && t.ks[8] = 0) = true := by
  decide +kernel

/-- V-REG-8 (T16). -/
theorem test_write_while_busy :
    Answers ((busyWith 1 []).access (.writeReg 32 0x00C 5)) (fun t => t.seed = 0 && t.status.ovr) = true := by
  decide +kernel

/-- R57, R23: two windows, and the instance each platform address falls in. -/
theorem test_platform_locate :
    let P := Platform.reset [Params.default, { Params.default with regBase := 0x400 }]
    P.locate 0x404 = some (1, 4) ∧ P.locate 0x1FC = some (0, 0x1FC) ∧ P.locate 0x200 = none := by
  decide +kernel

/-- R74, R75: `RUN MARK` is the write of its word, then a wait. -/
theorem test_script_run : Script.run .mark = [.writeReg 32 0x000 0x00000004, .wait] := by decide

/-! ### States and operands that meet the hypotheses of each obligation -/

theorem test_witness_EncodeAndDecodeAgreeOnEveryWord :
    Instr.wf .decode = true ∧ decode 0x00000011 = .ok .decode := by decide

/-- Both clauses, at the ends of their ranges. -/
theorem test_witness_EveryOtherWordIsRejectedByName :
    256 ≤ (0x00000100 : Word).toNat ∧ 256 ≤ (0xFFFFFFFF : Word).toNat ∧
    ∀ w ∈ [(0x00 : Word), 0x0B, 0x0F, 0x12, 0xFF],
      w.toNat < 256 ∧ w.toNat ∉ [1, 2, 3, 4, 5, 6, 7, 8, 9, 10, 16, 17] :=
  ⟨by simp, by simp, by simp⟩

theorem test_witness_IllegalWordCompletionWritesOnlyStatus :
    ∀ s ∈ [busyWith 0x101 [], busyWith 0x0B [.wait]],
      s.pend.toNat ∉ [1, 2, 3, 4, 5, 6, 7, 8, 9, 10, 16, 17] ∧ s.status.busy = true ∧
      (s.script = [] ∨ s.script.head? = some .wait) := by decide

theorem test_witness_StepRunsTheDecodedCommand :
    ∀ s ∈ [busyWith 4 [], busyWith 4 [.wait, .reset]],
      decode s.pend = .ok .mark ∧ s.turn = .core ∧ s.status.busy = true ∧
      (s.script = [] ∨ s.script.head? = some .wait) := by decide

theorem test_witness_CompletionStepIsEnabledExactlyWhileBusy :
    State.reset.status.busy = false ∧
    (∀ s ∈ [busyWith 4 [], busyWith 4 [.wait]], s.status.busy = true ∧
      (s.script = [] ∨ s.script.head? = some .wait)) ∧
    (busyWith 4 [.reset]).status.busy = true ∧ (busyWith 4 [.reset]).script = .reset :: [] ∧
    Access.reset ≠ .wait := by decide

theorem test_witness_IdleBlockKeepsAllState : State.reset.RunOver := by decide

theorem test_witness_CommandEndsInBoundedStepsUnderPolling :
    (busyWith 4 (List.replicate 3 (.readReg 32 0x004))).status.busy = true ∧
    (busyWith 4 (List.replicate 3 (.readReg 32 0x004))).script = List.replicate 3 (.readReg 32 0x004) := by decide

theorem test_witness_RunStatementPerformsTheCommand :
    State.reset.status.busy = false ∧
    (State.reset.setScript (Script.run .mark ++ [.reset])).script = Script.run .mark ++ [.reset] := by decide

/-- The last source address that fits. -/
theorem test_witness_KsIvFillsKsFromTheIv :
    (operands 0xFE0 0 0).srcAddr.toNat + 32 ≤ (operands 0xFE0 0 0).params.memSize := by decide

/-- The first addresses that do not fit. -/
theorem test_witness_RangeErrorOfOneRegionCommandsWritesOnlyStatus :
    (operands 0xFE1 0 0).params.memSize < (operands 0xFE1 0 0).srcAddr.toNat + 32 ∧
    (operands 0 0 0xF01).params.memSize < (operands 0 0 0xF01).dstAddr.toNat + 256 ∧
    Instr.encBlk ∈ [Instr.shuf2, .unshuf1, .unshuf2, .encBlk, .decBlk1, .decBlk2] := by decide

theorem test_witness_MarkReplacesDataByItsMarker :
    (0xA1 : Byte) = ((0xA5 : Byte) ^^^ 0x0C) &&& 0xA5 := by decide

/-- The last destination address that fits. -/
theorem test_witness_PermutationCommandsMoveWords :
    (operands 0 0 0xF00).dstAddr.toNat + 256 ≤ (operands 0 0 0xF00).params.memSize ∧
    (Instr.unshuf1, Params.default.pInv1) ∈
      [(Instr.shuf2, Params.default.pFwd), (.unshuf1, Params.default.pInv1), (.unshuf2, Params.default.pInv2)] := by
  exact ⟨by decide, by simp⟩

theorem test_witness_PermutationsAreBijectionsAndInvert : reversed.Ok := test_wf_reversed

theorem test_witness_EncBlkEncodesOneBlock :
    (operands 0 0 0xF00).dstAddr.toNat + 256 ≤ (operands 0 0 0xF00).params.memSize := by decide

theorem test_witness_DecBlkCommandsDecodeOneBlock :
    (operands 0 0 0xF00).dstAddr.toNat + 256 ≤ (operands 0 0 0xF00).params.memSize ∧
    (Instr.decBlk1, Params.default.pInv1) ∈
      [(Instr.decBlk1, Params.default.pInv1), (.decBlk2, Params.default.pInv2)] := by
  exact ⟨by decide, by simp⟩

theorem test_witness_EncBlkThenDecBlk2RestoresTheBlock :
    Table.Inverts { operands 0 0 0xF00 with params := reversed }.params.pFwd
      { operands 0 0 0xF00 with params := reversed }.params.pInv2 ∧
    { operands 0 0 0xF00 with params := reversed }.dstAddr.toNat + 256 ≤
      { operands 0 0 0xF00 with params := reversed }.params.memSize := by decide +kernel

theorem test_witness_DecodeChainInvertsEncodeChain : Table.Inverts reversed.pFwd reversed.pInv2 := by decide +kernel

theorem test_witness_ChainingCarriesEveryChangeOfABlock :
    reversed.Ok ∧ reversed.pInv2 ∈ [reversed.pInv1, reversed.pInv2] ∧
    (Vector.replicate 256 0 : Block) ≠ Vector.replicate 256 1 := by
  refine ⟨test_wf_reversed, by simp, fun h => ?_⟩
  have := congrArg (fun X : Block => X[0]) h
  simp at this

theorem test_witness_EncodeOfAnEmptySourceIsANoOp : (operands 0xFFFFFFFF 0 0xFFFFFFFF).srcLen = 0 := by decide

/-- V-ERR-E3 and V-ERR-E5 (T10): the last destination, and adjacent regions in either order. -/
theorem test_witness_EncodeWritesTheV3Buffer :
    ∀ s ∈ [operands 0 1 0xEFB, operands 0 10 0xA, operands 0x105 1 0],
      s.params.MemSizeOk ∧ s.srcLen ≠ 0 ∧ s.srcAddr.toNat + s.srcLen.toNat ≤ s.params.memSize ∧
      s.dstAddr.toNat + (256 * (s.srcLen.toNat / 256 + 1) + 5) ≤ s.params.memSize ∧
      (s.srcAddr.toNat + s.srcLen.toNat ≤ s.dstAddr.toNat ∨
        s.dstAddr.toNat + (256 * (s.srcLen.toNat / 256 + 1) + 5) ≤ s.srcAddr.toNat) := by decide

/-- V-ERR-E1, V-ERR-E2 and V-ERR-E4 (T10): one for each clause. -/
theorem test_witness_EncodeErrorsWriteOnlyDstLenAndStatus :
    ((operands 0xFFF 2 0).srcLen ≠ 0 ∧
      (operands 0xFFF 2 0).params.memSize < (operands 0xFFF 2 0).srcAddr.toNat + (operands 0xFFF 2 0).srcLen.toNat) ∧
    ((operands 0 1 0xEFC).srcAddr.toNat + (operands 0 1 0xEFC).srcLen.toNat ≤ (operands 0 1 0xEFC).params.memSize ∧
      (operands 0 1 0xEFC).params.memSize <
        (operands 0 1 0xEFC).dstAddr.toNat + (256 * ((operands 0 1 0xEFC).srcLen.toNat / 256 + 1) + 5)) ∧
    ((operands 0 10 9).srcAddr.toNat + (operands 0 10 9).srcLen.toNat ≤ (operands 0 10 9).params.memSize ∧
      (operands 0 10 9).dstAddr.toNat + (256 * ((operands 0 10 9).srcLen.toNat / 256 + 1) + 5) ≤
        (operands 0 10 9).params.memSize ∧
      (operands 0 10 9).srcAddr.toNat <
        (operands 0 10 9).dstAddr.toNat + (256 * ((operands 0 10 9).srcLen.toNat / 256 + 1) + 5) ∧
      (operands 0 10 9).dstAddr.toNat < (operands 0 10 9).srcAddr.toNat + (operands 0 10 9).srcLen.toNat) := by
  decide

/-- V-ERR-D1, the row 260 and the row 262 of T12: one for each clause. -/
theorem test_witness_DecodeErrorsBeforeTheVersionIsKnown :
    ((operands 0xF00 261 0).srcLen ≠ 0 ∧ (operands 0xF00 261 0).params.memSize <
      (operands 0xF00 261 0).srcAddr.toNat + (operands 0xF00 261 0).srcLen.toNat) ∧
    (∀ s ∈ [operands 0 260 0x300, operands 0xFFFFFFFF 0 0],
      (s.srcLen = 0 ∨ s.srcAddr.toNat + s.srcLen.toNat ≤ s.params.memSize) ∧ s.srcLen.toNat < 261) ∧
    ((operands 0 262 0x300).srcAddr.toNat + (operands 0 262 0x300).srcLen.toNat ≤
      (operands 0 262 0x300).params.memSize ∧ 261 ≤ (operands 0 262 0x300).srcLen.toNat ∧
      (operands 0 262 0x300).srcLen.toNat % 256 ∉ [32, 33, 5]) := by decide

/-- V-ERR-D2 and V-ERR-D3 (T14), and the same two clauses for a v1 and a v2 length. -/
theorem test_witness_DecodeErrorsOfTheDestination :
    ∀ x ∈ [(Version.v3, 5, operands 0x100 261 0xF01, operands 0x100 261 0x180),
           (.v1, 32, operands 0x100 288 0xF01, operands 0x100 288 0x180),
           (.v2, 33, operands 0x100 289 0xF01, operands 0x100 289 0x180)],
      (x.1, x.2.1) ∈ [(Version.v1, 32), (.v2, 33), (.v3, 5)] ∧
      261 ≤ x.2.2.1.srcLen.toNat ∧ x.2.2.1.srcLen.toNat % 256 = x.2.1 ∧
      x.2.2.1.srcAddr.toNat + x.2.2.1.srcLen.toNat ≤ x.2.2.1.params.memSize ∧
      x.2.2.1.params.memSize < x.2.2.1.dstAddr.toNat + (x.2.2.1.srcLen.toNat - x.2.1) ∧
      261 ≤ x.2.2.2.srcLen.toNat ∧ x.2.2.2.srcLen.toNat % 256 = x.2.1 ∧
      x.2.2.2.srcAddr.toNat + x.2.2.2.srcLen.toNat ≤ x.2.2.2.params.memSize ∧
      x.2.2.2.dstAddr.toNat + (x.2.2.2.srcLen.toNat - x.2.1) ≤ x.2.2.2.params.memSize ∧
      x.2.2.2.srcAddr.toNat < x.2.2.2.dstAddr.toNat + (x.2.2.2.srcLen.toNat - x.2.1) ∧
      x.2.2.2.dstAddr.toNat < x.2.2.2.srcAddr.toNat + x.2.2.2.srcLen.toNat := by decide +kernel

/-- The row 261 of T12: header seed 0 expects the marker ca, the stored byte is 00. -/
theorem test_witness_DecodeMarkerMismatchWritesNoOutput :
    261 ≤ (operands 0 261 0x300).srcLen.toNat ∧ (operands 0 261 0x300).srcLen.toNat % 256 = 5 ∧
    (operands 0 261 0x300).srcAddr.toNat + (operands 0 261 0x300).srcLen.toNat ≤ 0x1000 ∧
    (operands 0 261 0x300).dstAddr.toNat + ((operands 0 261 0x300).srcLen.toNat - 5) ≤ 0x1000 ∧
    (operands 0 261 0x300).srcAddr.toNat + (operands 0 261 0x300).srcLen.toNat ≤
      (operands 0 261 0x300).dstAddr.toNat ∧
    (∀ i < 4, (operands 0 261 0x300).mem.read ((operands 0 261 0x300).srcAddr.toNat + i) =
      (0 : Word).extractLsb' (24 - 8 * i) 8) ∧
    (operands 0 261 0x300).mem.read
        ((operands 0 261 0x300).srcAddr.toNat + (operands 0 261 0x300).srcLen.toNat - 1) ≠
      closedMarker (BitVec.ofNat 8 (generatorByte 0 257)) := by decide +kernel

/-- The rows 288 and 289 of T12, with adjacent regions in either order. -/
theorem test_witness_DecodeOfLegacyBuffers :
    ∀ x ∈ [(Version.v1, 32, Params.default.pInv1, operands 0 288 288),
           (.v2, 33, Params.default.pInv2, operands 256 289 0)],
      (x.1, x.2.1, x.2.2.1) ∈ [(Version.v1, 32, x.2.2.2.params.pInv1), (.v2, 33, x.2.2.2.params.pInv2)] ∧
      x.2.2.2.params.MemSizeOk ∧ 261 ≤ x.2.2.2.srcLen.toNat ∧ x.2.2.2.srcLen.toNat % 256 = x.2.1 ∧
      x.2.2.2.srcAddr.toNat + x.2.2.2.srcLen.toNat ≤ x.2.2.2.params.memSize ∧
      x.2.2.2.dstAddr.toNat + (x.2.2.2.srcLen.toNat - x.2.1) ≤ x.2.2.2.params.memSize ∧
      (x.2.2.2.srcAddr.toNat + x.2.2.2.srcLen.toNat ≤ x.2.2.2.dstAddr.toNat ∨
        x.2.2.2.dstAddr.toNat + (x.2.2.2.srcLen.toNat - x.2.1) ≤ x.2.2.2.srcAddr.toNat) := by decide +kernel

/-- V-DEC-1 (T11). -/
theorem test_witness_DecodeOfV3Buffers :
    (loaded (operands 0x100 261 0) 0x100 vEnc1).params.MemSizeOk ∧
    261 ≤ (operands 0x100 261 0).srcLen.toNat ∧ (operands 0x100 261 0).srcLen.toNat % 256 = 5 ∧
    (operands 0x100 261 0).srcAddr.toNat + (operands 0x100 261 0).srcLen.toNat ≤ 0x1000 ∧
    (operands 0x100 261 0).dstAddr.toNat + ((operands 0x100 261 0).srcLen.toNat - 5) ≤
      (operands 0x100 261 0).srcAddr.toNat ∧
    (∀ i < 4, (loaded (operands 0x100 261 0) 0x100 vEnc1).mem.read (0x100 + i) =
      (1 : Word).extractLsb' (24 - 8 * i) 8) ∧
    (loaded (operands 0x100 261 0) 0x100 vEnc1).mem.read (0x100 + 261 - 1) =
      closedMarker (BitVec.ofNat 8 (generatorByte 1 257)) := by decide +kernel

/-- The row 288 of T12 under ZERO_IS_CORRUPT; and a v1 buffer whose decoded last byte is 1. -/
theorem test_witness_CorruptPaddingIsExactlyAZeroLastByteUnderZeroIsCorrupt :
    Params.default.pad0Mode = .zeroIs256 ∧
    (∃ v Y w K, decodeBuffer { Params.default with pad0Mode := .zeroIsCorrupt } (List.replicate 288 0) =
      .corruptPadding v Y w K) ∧
    (∃ v Y n w K, decodeBuffer { Params.default with pad0Mode := .zeroIsCorrupt } (List.replicate 287 0 ++ [1]) =
      .ok v Y n w K) := by
  have h0 : (match decodeBuffer { Params.default with pad0Mode := .zeroIsCorrupt } (List.replicate 288 0) with
    | .corruptPadding _ _ _ _ => true | _ => false) = true := by decide +kernel
  have h1 : (match decodeBuffer { Params.default with pad0Mode := .zeroIsCorrupt } (List.replicate 287 0 ++ [1]) with
    | .ok _ _ _ _ _ => true | _ => false) = true := by decide +kernel
  refine ⟨rfl, ?_, ?_⟩
  · generalize decodeBuffer _ _ = r at h0
    cases r <;> simp at h0 ⊢
  · generalize decodeBuffer _ _ = r at h1
    cases r <;> simp at h1 ⊢

/-- V-TMP-1 (T13): V-ENC-1, whose marker is changed to ab; and under ZERO_IS_CORRUPT the same buffer with the stored pad
byte that decodes to 0 (KS byte 255 from seed 1 is 5e, R105). -/
theorem test_witness_AChangedMarkerByteIsAlwaysDetected :
    (∃ Y n w K, decodeBuffer Params.default vEnc1 = .ok .v3 Y n w K) ∧ vEnc1.getLast? ≠ some 0xab ∧
    (∃ Y w K, decodeBuffer { Params.default with pad0Mode := .zeroIsCorrupt } (vEnc1.set 259 0x5e) =
      .corruptPadding .v3 Y w K) ∧ (vEnc1.set 259 0x5e).getLast? ≠ some 0xab := by
  have h0 : (match decodeBuffer Params.default vEnc1 with | .ok .v3 _ _ _ _ => true | _ => false) = true := by
    decide +kernel
  have h1 : (match decodeBuffer { Params.default with pad0Mode := .zeroIsCorrupt } (vEnc1.set 259 0x5e) with
    | .corruptPadding .v3 _ _ _ => true | _ => false) = true := by decide +kernel
  refine ⟨?_, by decide +kernel, ?_, by decide +kernel⟩
  · generalize decodeBuffer _ _ = r at h0
    cases r with
    | ok v Y n w K => cases v <;> simp at h0 ⊢
    | _ => simp at h0
  · generalize decodeBuffer _ _ = r at h1
    cases r with
    | corruptPadding v Y w K => cases v <;> simp at h1 ⊢
    | _ => simp at h1

theorem test_witness_TheV2TrailingByteIsIgnored :
    261 ≤ (List.replicate 289 (0 : Byte)).length ∧ (List.replicate 289 (0 : Byte)).length % 256 = 33 := by
  decide +kernel

theorem test_witness_DecodeUndoesEncode : Table.Inverts reversed.pFwd reversed.pInv2 ∧ ([0x41] : List Byte) ≠ [] :=
  ⟨by decide +kernel, by decide⟩

/-- The operands of program P2 (T19). -/
theorem test_witness_EncodeThenDecodeRestoresThePlaintext :
    { operands 0 1 0x100 with params := reversed }.params.Ok ∧
    { operands 0 1 0x100 with params := reversed }.params.pad0Mode = .zeroIs256 ∧
    { operands 0 1 0x100 with params := reversed }.srcLen ≠ 0 ∧
    (sourceOperand { operands 0 1 0x100 with params := reversed }).Valid reversed ∧
    (encodeTarget { operands 0 1 0x100 with params := reversed }).Valid reversed ∧
    ¬ (sourceOperand { operands 0 1 0x100 with params := reversed }).Overlaps
      (encodeTarget { operands 0 1 0x100 with params := reversed }) ∧
    (0x300 : Word).toNat + 256 * ((operands 0 1 0x100).srcLen.toNat / 256 + 1) ≤ reversed.memSize ∧
    (operands 0 1 0x100).dstAddr.toNat + (256 * ((operands 0 1 0x100).srcLen.toNat / 256 + 1) + 5) ≤
      (0x300 : Word).toNat :=
  ⟨test_wf_reversed, by decide +kernel⟩

theorem test_witness_BlockCommandsFrame :
    Instr.decBlk2 ∈ [Instr.shuf2, .unshuf1, .unshuf2, .encBlk, .decBlk1, .decBlk2] ∧
    Instr.unshuf2 ∈ [Instr.shuf2, .unshuf1, .unshuf2] ∧
    ¬ (blockOperand (operands 0 0 0x100)).Covers 0xFF ∧ ¬ (blockOperand (operands 0 0 0x100)).Covers 0x200 := by decide

theorem test_witness_EncodeFrame :
    ¬ (encodeTarget (operands 0 1 0x100)).Covers 0xFF ∧ ¬ (encodeTarget (operands 0 1 0x100)).Covers 0x205 := by decide

theorem test_witness_DecodeFrame :
    (operands 0 288 0x200).srcLen.toNat % 256 ≠ 5 ∧
    ∀ v, versionOf (operands 0 288 0x200).srcLen.toNat = some v →
      ¬ (decodeTarget (operands 0 288 0x200) v).Covers 0x1FF ∧
      ¬ (decodeTarget (operands 0 288 0x200) v).Covers 0x300 := by
  refine ⟨by decide, fun v => ?_⟩
  cases v <;> decide

theorem test_witness_ErrorsOtherThanCorruptPaddingWriteNoOutput :
    ∃ t, exec .ksIv (operands 0xFE1 0 0) = .next t ∧ t.status.err ≠ .ok ∧ t.status.err ≠ .corruptPadding :=
  ⟨(operands 0xFE1 0 0).complete .rangeError, by rw [exec_ksIv, execKsIv_eq, if_neg (by decide)], by decide, by decide⟩

/-- ENCODE of one byte, and DECODE of the row 288 of T12. -/
theorem test_witness_PipelinesIgnoreTheOldKeystream :
    (∃ t, exec .encode (operands 0 1 0x100) = .next t ∧ t.status.err = .ok ∧ (operands 0 1 0x100).srcLen ≠ 0) ∧
    (∃ t, exec .decode (operands 0 288 0x200) = .next t ∧ t.status.err = .ok) := by
  refine ⟨⟨encodeResult (operands 0 1 0x100), ?_, by rw [encodeResult_status], by decide⟩, ?_⟩
  · rw [exec_encode, execEncode_of_fits _ (by decide) (by decide) (by decide) (by decide)]
  · obtain ⟨t, h, ht⟩ := Answers.next (r := exec .decode (operands 0 288 0x200))
      (test := fun t => t.status.err = .ok) (by decide +kernel)
    exact ⟨t, h, by simpa using ht⟩

theorem test_witness_CmdWriteIssuesTheCommand :
    State.reset.status.busy = false ∧ (busyWith 4 []).status.busy = true := by decide

theorem test_witness_WritesWhileBusyAreDropped :
    (busyWith 4 []).status.busy = true ∧ 0x020 ∈ [0x000, 0x00C, 0x010, 0x014, 0x018, 0x020] ∧
    0x1FC = 0x100 + 4 * 63 ∧ 63 < 64 ∧ 0x028 ∈ [0x01C, 0x024, 0x028] ∧ 0x0FC = 0x02C + 4 * 52 ∧ 52 < 53 := by decide

theorem test_witness_IdleRegisterWritesSetTheWritableBits :
    ∀ r ∈ [Reg.seed, .srcAddr, .srcLen, .dstAddr, .data, .ctrl, .dstLen, .id, .cfg, .reserved 52, .ksw 63],
      State.reset.status.busy = false ∧ r ≠ .cmd ∧ r ≠ .status := by decide

theorem test_witness_KswPacksKsLittleEndian :
    State.reset.status.busy = false ∧ 252 / 4 = (63 : Fin 64).val ∧ 251 / 4 ≠ (63 : Fin 64).val := by decide

/-- An access of each kind at each end of its range. -/
theorem test_witness_AccessesOutsideTheInterfaceAreRefused :
    State.reset.access (.readReg 32 0x200) = .refused (.registerAccess 32 0x200) ∧
    State.reset.access (.writeReg 16 0x000 0) = .refused (.registerAccess 16 0x000) ∧
    State.reset.access (.readMem 8 0x1000) = .refused (.bufferAccess 8 0x1000) ∧
    State.reset.access (.writeMem 32 0 0) = .refused (.bufferAccess 32 0) ∧
    (∀ x ∈ [0x02C, 0x0FC], x % 4 = 0 ∧ 0x02C ≤ x ∧ x ≤ 0x0FC) := by
  refine ⟨rfl, rfl, ?_, ?_, by decide⟩
  · simp only [State.access]
    rw [if_neg (by decide)]
  · simp only [State.access]
    rw [if_pos (by decide)]

theorem test_witness_HostByteWritesReadBack :
    State.reset.status.busy = false ∧ 0xFFF < State.reset.params.memSize := by decide

theorem test_witness_BufferAccessesWhileBusy :
    (busyWith 4 []).status.busy = true ∧ 0xFFF < (busyWith 4 []).params.memSize := by decide

theorem test_witness_RegisterReadsHaveNoSideEffect :
    State.reset.status.busy = false ∧ (busyWith 4 []).status.busy = true ∧
    Reg.cmd ∈ [Reg.status, .ctrl, .id, .cfg, .srcAddr, .srcLen, .dstAddr, .cmd] ∧
    (Reg.dstLen ∈ [Reg.seed, .data, .dstLen] ∨ ∃ i, Reg.dstLen = .ksw i) ∧
    (Reg.ksw 63 ∈ [Reg.seed, .data, .dstLen] ∨ ∃ i, Reg.ksw 63 = .ksw i) ∧
    (0x020 ∈ [0x00C, 0x01C, 0x020] ∨ ∃ i < 64, 0x020 = 0x100 + 4 * i) ∧
    (0x1FC ∈ [0x00C, 0x01C, 0x020] ∨ ∃ i < 64, 0x1FC = 0x100 + 4 * i) :=
  ⟨by decide, by decide, by decide, .inl (by decide), .inr ⟨63, rfl⟩, .inl (by decide), .inr ⟨63, by decide⟩⟩

/-- R105: the 256 bytes from seed 1 begin c6 7e, so KSW[0] read after KS_SEED ends in 7ec6; SEED is dd5ed701. -/
theorem test_register_reads :
    Answers ({ State.reset with ks := (fromSeed 1).1, seed := (fromSeed 1).2 }.access (.readReg 32 0x100))
      (fun t => match t.seen with | [.reg 0x100 w] => w.setWidth 16 = 0x7ec6#16 | _ => false) = true ∧
    Answers ({ State.reset with seed := (fromSeed 1).2 }.access (.readReg 32 0x00C))
      (fun t => t.seen = [.reg 0x00C 0xDD5ED701]) = true := by
  decide +kernel

theorem test_witness_IrqIsRaisedByCompletionAndCleared :
    (0x00000002 : Word).getLsbD 1 = true ∧ (0xFFFFFFFE : Word).getLsbD 0 = false ∧
    State.reset.status.busy = false := by decide

theorem test_witness_ResetLeavesTheResetValues : Reg.status ≠ .id ∧ Reg.status ≠ .cfg := by decide

theorem test_witness_RegistersReadTheirResetValues : Reg.ksw 0 ≠ .id ∧ Reg.ksw 0 ≠ .cfg := by decide

theorem test_reset_inv : State.reset.Inv where
  params := test_wf_default
  mem := ⟨List.Pairwise.nil, by simp [State.reset]⟩
  within := by simp [State.reset, Memory.within]
  notDoneWhileBusy := by simp [State.reset, Status.reset]
  dstLen := by decide

/-- A state with the invariant whose step is the core's. -/
theorem test_witness_EveryStepKeepsTheInvariant :
    (busyWith 4 []).Inv ∧ ∃ t, step (busyWith 4 []) = .next t :=
  ⟨⟨test_reset_inv.params, test_reset_inv.mem, test_reset_inv.within, fun _ => rfl, test_reset_inv.dstLen⟩, _, rfl⟩

theorem test_witness_NoStepChangesTheParameters : ∃ t, step (busyWith 4 []) = .next t := ⟨_, rfl⟩

/-- A step that issues, and a step that completes. -/
theorem test_witness_OnlyIssueSetsBusyAndOnlyCompletionSetsDone :
    (∃ t, step (State.reset.setScript [.writeReg 32 0x000 4]) = .next t ∧
      (State.reset.setScript [.writeReg 32 0x000 4]).status.busy = false ∧ t.status.busy = true) ∧
    (∃ t, step (busyWith 4 []) = .next t ∧ (busyWith 4 []).status.done = false ∧ t.status.done = true) :=
  ⟨⟨_, rfl, rfl, rfl⟩, _, rfl, rfl, rfl⟩

theorem test_witness_OnlyAHostAccessIsRefused :
    ∃ q, step (State.reset.setScript [.readReg 8 0x000]) = .refused q := ⟨_, rfl⟩

theorem test_witness_InstancesShareNoState :
    (Platform.reset twoInstances).instances[0]? = (Platform.reset [Params.default]).instances[0]? ∧
    (Platform.reset twoInstances).Ok ∧ ∃ R, (Platform.reset twoInstances).stepAt 0 = .next R :=
  ⟨rfl, test_platform_ok, _, rfl⟩

end Sys2Proof.Tests
end

/-!
The invariant of `State.Inv`: what every completion, every access of the host and so every step does to the parameters,
memory, DST_LEN and STATUS.
-/
namespace Sys2Proof.Machine

/-! ### What a command needs and keeps -/

/-- The clauses of `State.Inv` that a completion step relies on: all but the one on STATUS, which `complete` sets. -/
structure State.StorageOk (s : State) : Prop where
  params : s.params.Ok
  mem : s.mem.wf
  within : s.mem.within s.params.memSize
  dstLen : s.dstLen.toNat ≤ s.params.memSize

theorem State.Inv.storageOk {s : State} (h : s.Inv) : s.StorageOk := ⟨h.params, h.mem, h.within, h.dstLen⟩

theorem State.StorageOk.inv {s : State} (h : s.StorageOk) (hs : s.status.busy = true → s.status.done = false) : s.Inv :=
  ⟨h.params, h.mem, h.within, hs, h.dstLen⟩

/-- The completion actions clear BUSY, so they bring the whole invariant back (R192). -/
theorem State.StorageOk.complete {s : State} (h : s.StorageOk) (c : Code) : (s.complete c).Inv :=
  ⟨h.params, h.mem, h.within, nofun, h.dstLen⟩

theorem State.StorageOk.of_eq {s t : State} (h : s.StorageOk) (hp : t.params = s.params) (hm : t.mem = s.mem)
    (hd : t.dstLen = s.dstLen) : t.StorageOk :=
  ⟨hp ▸ h.params, hm ▸ h.mem, hm ▸ hp ▸ h.within, hd ▸ hp ▸ h.dstLen⟩

theorem State.StorageOk.setDstLen {s : State} (h : s.StorageOk) {v : Word} (hv : v.toNat ≤ s.params.memSize) :
    (s.setDstLen v).StorageOk :=
  ⟨h.params, h.mem, h.within, hv⟩

/-- A write to a valid region keeps memory canonical and inside MEM_SIZE (R54). -/
theorem State.StorageOk.writeBytes {s : State} (h : s.StorageOk) {a : Nat} {bytes : List Byte}
    (hv : (Region.mk a bytes.length).Valid s.params) : (s.writeBytes a bytes).StorageOk :=
  ⟨h.params, Memory.writeBytes_wf h.mem _ _, Memory.writeBytes_within h.within _ _ hv, h.dstLen⟩

/-- A valid region is no longer than the memory (R54). -/
theorem Region.Valid.len_le {r : Region} {p : Params} (h : r.Valid p) : r.len ≤ p.memSize := by
  rcases h with h | h <;> omega

/-- A command on `s` answered by the completion of a state with the parameters of `s`, whose memory and DST_LEN are
legal when those of `s` are. -/
def State.Completes (s : State) (r : Result) : Prop :=
  ∃ (u : State) (c : Code), r = .next (u.complete c) ∧ u.params = s.params ∧ (s.StorageOk → u.StorageOk)

/-- A completion after writes to registers other than DST_LEN. -/
theorem State.completes_of_eq {s u : State} (c : Code) (hp : u.params = s.params) (hm : u.mem = s.mem)
    (hd : u.dstLen = s.dstLen) : s.Completes (.next (u.complete c)) :=
  ⟨u, c, rfl, hp, fun h => h.of_eq hp hm hd⟩

/-- A completion after DST_LEN was cleared: every early end of ENCODE and DECODE. -/
theorem State.completes_of_dstLen_zero {s u : State} (c : Code) (hp : u.params = s.params) (hm : u.mem = s.mem)
    (hd : u.dstLen = 0) : s.Completes (.next (u.complete c)) :=
  ⟨u, c, rfl, hp, fun h => (h.setDstLen (v := 0) (by simp)).of_eq hp hm hd⟩

/-! ### The commands -/

theorem execKsIv_completes (s : State) : s.Completes (execKsIv s) := by
  rw [execKsIv_eq]
  split <;> exact State.completes_of_eq _ rfl rfl rfl

theorem onBlock_completes (f : Block → Block → Block × Block) (s : State) : s.Completes (onBlock f s) := by
  rcases onBlock_cases f s with h | ⟨hfit, h⟩
  · exact h ▸ State.completes_of_eq _ rfl rfl rfl
  · refine ⟨_, _, h, rfl, fun hs => ?_⟩
    exact (hs.writeBytes (.inr (by simpa using hfit))).of_eq rfl rfl rfl

theorem encodeResult_completes {s : State} (hn : s.srcLen.toNat ≠ 0) (hd : (encodeTarget s).Valid s.params) :
    s.Completes (.next (encodeResult s)) := by
  have hfit : (Region.mk s.dstAddr.toNat
      (encodeBuffer s.params (s.mem.readBytes s.srcAddr.toNat s.srcLen.toNat) s.seed).bytes.length).Valid s.params := by
    rw [encodeBuffer_length _ _ _ (by simpa using hn), Memory.readBytes_length]
    exact hd
  have hlen : (BitVec.ofNat 32 (encodedLen s.srcLen.toNat)).toNat ≤ s.params.memSize :=
    (Nat.mod_le _ _).trans hd.len_le
  exact ⟨_, .ok, rfl, by simp, fun hs =>
    ((hs.writeBytes hfit).setDstLen hlen).of_eq (by simp) (by simp) (by simp)⟩

theorem execEncode_completes (s : State) : s.Completes (execEncode s) := by
  rcases execEncode_cases s with ⟨c, -, h⟩ | ⟨hn, -, hd, -, h⟩
  · exact h ▸ State.completes_of_dstLen_zero c rfl rfl rfl
  · exact h ▸ encodeResult_completes hn hd

/-- What DECODE writes of a decoded buffer fits a destination of `m` bytes, and so does the plaintext's length. -/
def Decoded.Fits (m : Nat) : Decoded → Prop
  | .corruptPadding _ Y _ _ => Y.length = m
  | .ok _ Y n _ _ => Y.length = m ∧ n ≤ m
  | .tooShort | .unknownVersion | .integrityMismatch => True

theorem decodePayload_fits (p : Params) (v : Version) (payload : List Byte) (w : Option Word) (K : Block)
    (h : payload.length = 256 * (payload.length / 256)) :
    (decodePayload p v payload w K).Fits payload.length := by
  have hY := decodedPayload_length p v payload K h
  unfold decodePayload
  simp only
  split
  · exact hY
  · exact ⟨hY, Nat.sub_le _ _⟩

/-- The decoded payload has the length of the version's payload (R80, R160). -/
theorem decodeBuffer_fits (p : Params) {B : List Byte} {v : Version} (hl : 261 ≤ B.length)
    (hv : versionOf B.length = some v) : (decodeBuffer p B).Fits (payloadLen v B.length) := by
  have hblocks := (payloadLen_blocks hl hv).1
  have fits : ∀ payload w K, payload.length = payloadLen v B.length →
      (decodePayload p v payload w K).Fits (payloadLen v B.length) :=
    fun payload w K h => h ▸ decodePayload_fits p v payload w K (by rwa [h])
  rcases decodeBuffer_cases p B hl hv with ⟨rfl, h⟩ | ⟨rfl, h⟩ | ⟨rfl, ⟨-, h⟩ | ⟨-, h⟩⟩ <;> rw [h]
  · exact fits _ _ _ (by simp [payloadLen, ivLen])
  · exact fits _ _ _ (by simp [payloadLen, ivLen]; omega)
  · trivial
  · exact fits _ _ _ (by simp [payloadLen, seedHeaderLen]; omega)

/-- DECODE's end completes when what it writes fits its destination. -/
theorem finishDecode_completes {s : State} {d m : Nat} {r : Decoded} (hr : r.Fits m)
    (hd : (Region.mk d m).Valid s.params) : s.Completes (finishDecode s d r) := by
  cases r with
  | tooShort => exact State.completes_of_eq _ rfl rfl rfl
  | unknownVersion => exact State.completes_of_eq _ rfl rfl rfl
  | integrityMismatch => exact State.completes_of_eq _ rfl rfl rfl
  | corruptPadding v Y w K =>
    subst hr
    refine ⟨_, _, rfl, by simp, fun hs => (hs.writeBytes hd).of_eq (by simp) (by simp) (by simp)⟩
  | ok v Y n w K =>
    obtain ⟨rfl, hn⟩ := hr
    have hlen : (BitVec.ofNat 32 n).toNat ≤ s.params.memSize := (Nat.mod_le _ _).trans (hn.trans hd.len_le)
    exact ⟨_, _, rfl, by simp, fun hs =>
      ((hs.writeBytes hd).setDstLen hlen).of_eq (by simp) (by simp) (by simp)⟩

theorem State.Completes.of_decodeStart {s : State} {v : Option Version} {r : Result}
    (h : (decodeStart s v).Completes r) : s.Completes r := by
  obtain ⟨u, c, hr, hp, hu⟩ := h
  exact ⟨u, c, hr, hp, fun hs => hu ((hs.setDstLen (v := 0) (by simp)).of_eq rfl rfl rfl)⟩

theorem execDecode_completes (s : State) : s.Completes (execDecode s) := by
  rcases execDecode_cases s with ⟨c, v, -, h⟩ | ⟨v, -, hl, hv, hd, -, h⟩
  · exact h ▸ State.completes_of_dstLen_zero c rfl rfl rfl
  · have hfits := decodeBuffer_fits s.params (B := s.mem.readBytes s.srcAddr.toNat s.srcLen.toNat) (v := v)
      (by simpa using hl) (by simpa using hv)
    rw [Memory.readBytes_length] at hfits
    exact h ▸ (finishDecode_completes (s := decodeStart s (some v)) hfits hd).of_decodeStart

/-- Every command, from every state, completes and keeps the parameters, memory and DST_LEN legal. -/
theorem exec_completes (i : Instr) (s : State) : s.Completes (exec i s) := by
  cases i with
  | lcgNext => rw [exec_lcgNext, execLcgNext_eq]; exact State.completes_of_eq _ (by simp) (by simp) (by simp)
  | ksSeed => rw [exec_ksSeed, execKsSeed_eq]; exact State.completes_of_eq _ (by simp) (by simp) (by simp)
  | ksIv => exact execKsIv_completes s
  | mark => rw [exec_mark, execMark_eq]; exact State.completes_of_eq _ (by simp) (by simp) (by simp)
  | shuf2 => rw [exec_shuf2, execShuf2_eq]; exact onBlock_completes _ s
  | unshuf1 => rw [exec_unshuf1, execUnshuf1_eq]; exact onBlock_completes _ s
  | unshuf2 => rw [exec_unshuf2, execUnshuf2_eq]; exact onBlock_completes _ s
  | encBlk => rw [exec_encBlk, execEncBlk_eq]; exact onBlock_completes _ s
  | decBlk1 => rw [exec_decBlk1, execDecBlk1_eq]; exact onBlock_completes _ s
  | decBlk2 => rw [exec_decBlk2, execDecBlk2_eq]; exact onBlock_completes _ s
  | encode => exact execEncode_completes s
  | decode => exact execDecode_completes s

/-- So does every completion step, that of an illegal word included (R73, R191). -/
theorem completionStep_completes (s : State) : s.Completes s.completionStep := by
  rcases completionStep_cases s with ⟨i, -, h⟩ | ⟨e, -, h⟩
  · exact h ▸ exec_completes i s
  · exact h ▸ State.completes_of_eq _ rfl rfl rfl

/-! ### The host's accesses -/

/-- `t` differs from `s` in no parameter, no byte of memory and not in DST_LEN, and has DONE = 0 while BUSY = 1 when `s`
has: what a register access, and the host's own bookkeeping, does at most. -/
structure State.KeepsStorage (s t : State) : Prop where
  params : t.params = s.params
  mem : t.mem = s.mem
  dstLen : t.dstLen = s.dstLen
  status : (s.status.busy = true → s.status.done = false) → t.status.busy = true → t.status.done = false

theorem State.Inv.of_keepsStorage {s t : State} (h : s.Inv) (k : s.KeepsStorage t) : t.Inv :=
  (h.storageOk.of_eq k.params k.mem k.dstLen).inv (k.status h.notDoneWhileBusy)

theorem State.hostReadReg_keepsStorage (s : State) (r : Reg) : s.KeepsStorage (s.hostReadReg r) := by
  unfold State.hostReadReg
  split <;> exact ⟨rfl, rfl, rfl, id⟩

theorem State.hostReadByte_keepsStorage (s : State) (a : Nat) : s.KeepsStorage (s.hostReadByte a) := by
  unfold State.hostReadByte
  split <;> exact ⟨rfl, rfl, rfl, id⟩

/-- An accepted write leaves DONE and BUSY in order: an issue clears DONE, and a STATUS write can only clear it. -/
theorem State.acceptWrite_keepsStorage (s : State) (v : Word) (r : Reg) : s.KeepsStorage (s.acceptWrite v r) := by
  cases r with
  | cmd => exact ⟨rfl, rfl, rfl, fun _ _ => rfl⟩
  | status =>
    refine ⟨rfl, rfl, rfl, fun h hb => ?_⟩
    simp only [State.acceptWrite, State.setStatus_status, Status.writeOneToClear] at hb ⊢
    simp [h hb]
  | _ => exact ⟨rfl, rfl, rfl, id⟩

theorem State.hostWriteReg_keepsStorage (s : State) (r : Reg) (v : Word) : s.KeepsStorage (s.hostWriteReg r v) := by
  unfold State.hostWriteReg
  split
  · exact ⟨rfl, rfl, rfl, id⟩
  · exact s.acceptWrite_keepsStorage v r

/-- Everything an accepted access of the host does to what the invariant speaks of: a register access or a read
keeps it, a byte write goes below MEM_SIZE, and a reset leaves the reset values beside the memory. -/
theorem access_next {s t : State} {a : Access} (h : s.access a = .next t) :
    s.KeepsStorage t ∨ (∃ x b, x < s.params.memSize ∧ t = s.setMem (s.mem.write x b)) ∨ t = s.platformReset := by
  rcases access_cases s a with ⟨q, e⟩ | ⟨r, _, _, -, -, e⟩ | ⟨r, _, _, v, -, -, e⟩ | ⟨x, -, e⟩ | ⟨x, b, hx, -, e⟩ |
    ⟨-, e⟩ | ⟨-, e⟩ <;> rw [e] at h <;> cases h
  · exact .inl (s.hostReadReg_keepsStorage r)
  · exact .inl (s.hostWriteReg_keepsStorage r v)
  · exact .inl (s.hostReadByte_keepsStorage x)
  · exact .inr (.inl ⟨x, b, hx, rfl⟩)
  · exact .inl ⟨rfl, rfl, rfl, id⟩
  · exact .inr (.inr rfl)

theorem access_params {s t : State} {a : Access} (h : s.access a = .next t) : t.params = s.params := by
  rcases access_next h with k | ⟨_, _, -, rfl⟩ | rfl
  · exact k.params
  · rfl
  · rfl

theorem access_inv {s t : State} {a : Access} (hs : s.Inv) (h : s.access a = .next t) : t.Inv := by
  rcases access_next h with k | ⟨x, b, hx, rfl⟩ | rfl
  · exact hs.of_keepsStorage k
  · exact ⟨hs.params, Memory.write_wf hs.mem x b, Memory.write_within hs.within b hx, hs.notDoneWhileBusy, hs.dstLen⟩
  · exact ⟨hs.params, hs.mem, hs.within, nofun, by simp⟩

/-! ### The step -/

theorem State.scheduled_keepsStorage (s : State) : s.KeepsStorage s.scheduled := by
  rcases s.scheduled_eq with h | h <;> rw [h] <;> exact ⟨rfl, rfl, rfl, id⟩

/-- Everything a step that answers a next state can be: it idles, completes a command or performs one access,
from a state that differs from `s` in the host's script and the count of draws alone. -/
theorem step_next {s t : State} (h : step s = .next t) :
    t = s ∨ ∃ u, s.KeepsStorage u ∧ (u.Completes (.next t) ∨ ∃ a, u.access a = .next t) := by
  rcases step_cases s with ⟨-, -, e⟩ | ⟨-, e⟩ | ⟨a, rest, -, -, e⟩ <;> rw [e] at h
  · exact .inl (by cases h; rfl)
  · exact .inr ⟨_, s.scheduled_keepsStorage, .inl (h ▸ completionStep_completes s.scheduled)⟩
  · have k := s.scheduled_keepsStorage
    exact .inr ⟨s.scheduled.setScript rest, ⟨k.params, k.mem, k.dstLen, k.status⟩, .inr ⟨a, h⟩⟩

theorem State.Completes.next_params {s t : State} (h : s.Completes (.next t)) : t.params = s.params := by
  obtain ⟨u, c, e, hp, -⟩ := h
  cases e
  exact hp

theorem State.Completes.next_inv {s t : State} (h : s.Completes (.next t)) (hs : s.StorageOk) : t.Inv := by
  obtain ⟨u, c, e, -, hu⟩ := h
  cases e
  exact (hu hs).complete c

/-- No step changes a parameter (R8 to R13). -/
theorem step_params {s t : State} (h : step s = .next t) : t.params = s.params := by
  rcases step_next h with rfl | ⟨u, k, hu | ⟨a, hu⟩⟩
  · rfl
  · exact hu.next_params.trans k.params
  · exact (access_params hu).trans k.params

/-- Every step keeps the invariant. -/
theorem step_inv {s t : State} (hs : s.Inv) (h : step s = .next t) : t.Inv := by
  rcases step_next h with rfl | ⟨u, k, hu | ⟨a, hu⟩⟩
  · exact hs
  · exact hu.next_inv (hs.of_keepsStorage k).storageOk
  · exact access_inv (hs.of_keepsStorage k) hu

/-- Settles O56: the completion step of any command or illegal word by `exec_completes`, an access by `access_inv`. -/
theorem everyStepKeepsTheInvariant : Obligations.EveryStepKeepsTheInvariant :=
  fun _ _ hs h => step_inv hs h

/-- The default parameters are legal (R8, R10, R11, R13, R59). -/
theorem Params.default_ok : Params.default.Ok where
  memSize := by decide
  regBase := by decide
  fwd := by decide
  inv1 := by decide
  inv2 := by decide
  inverse := by decide

/-- Settles O55. -/
theorem resetMeetsTheInvariant : Obligations.ResetMeetsTheInvariant where
  params := Params.default_ok
  mem := ⟨.nil, nofun⟩
  within := nofun
  notDoneWhileBusy := nofun
  dstLen := Nat.zero_le _

end Sys2Proof.Machine

/-!
Legal permutation tables: the inverse of a bijective table, and what R13's inverse constraint gives for blocks and
chains.
-/
namespace Sys2Proof.Machine

/-! ### Permutations (R13, R120) -/

/-- `perm` by `B` undoes `perm` by `A` when `A[B[j]] = j` for every `j` (R13, R121). -/
theorem perm_perm_of_inverts {A B : Table} (h : Table.Inverts A B) (X : Block) : perm B (perm A X) = X := by
  apply Vector.ext
  intro i hi
  have hw : A[(B[i / 4]'(by omega)).val] = ⟨i / 4, by omega⟩ := h ⟨i / 4, by omega⟩
  have hj : (B[i / 4]'(by omega)).val < 64 := (B[i / 4]'(by omega)).isLt
  simp only [perm_getElem B _ i hi, perm_getElem_word A X _ (i % 4) hj (by omega), hw]
  congr 1
  omega

/-- Every legal table has an inverse table, on either side (R13). -/
theorem Table.exists_inverts_of_bijective {T : Table} (h : T.Bijective) :
    ∃ U : Table, Table.Inverts T U ∧ Table.Inverts U T := by
  have hinj : Function.Injective fun j : Fin 64 => T[j] := fun i j hij =>
    Fin.ext ((List.Nodup.getElem_inj_iff (l := T.toList) h (hi := by simp) (hj := by simp)).1 (by simpa using hij))
  obtain ⟨g, hleft, hright⟩ := Function.bijective_iff_has_inverse.1 (Finite.injective_iff_bijective.1 hinj)
  refine ⟨tabulate 64 g, fun j => ?_, fun j => ?_⟩
  · simpa using hright j
  · simpa using hleft j

/-- A legal table permutes the blocks bijectively (R13, R120). -/
theorem perm_bijective {T : Table} (h : T.Bijective) : Function.Bijective (perm T) := by
  obtain ⟨U, hTU, hUT⟩ := Table.exists_inverts_of_bijective h
  exact Function.bijective_iff_has_inverse.2 ⟨perm U, perm_perm_of_inverts hTU, perm_perm_of_inverts hUT⟩

/-- Settles O17: a legal table has an inverse table, whose permutation is the two-sided inverse. -/
theorem permutationsAreBijectionsAndInvert : Obligations.PermutationsAreBijectionsAndInvert :=
  fun _ hp => ⟨perm_bijective hp.fwd, perm_bijective hp.inv1, perm_bijective hp.inv2, perm_perm_of_inverts hp.inverse⟩

/-! ### Chains (R140) -/

/-- `dec_step` of the stored block gives the block and the keystream of `enc_step` (R140). -/
theorem decStep_encStep {p : Params} (h : Table.Inverts p.pFwd p.pInv2) (X K : Block) :
    decStep p p.pInv2 (encStep p X K).1 K = (X, (encStep p X K).2) := by
  simp only [decStep, encStep, perm_perm_of_inverts h, Block.xor_xor_cancel]

/-- A chain decodes from the keystream it was encoded from (R140). -/
theorem decChain_encChain {p : Params} (h : Table.Inverts p.pFwd p.pInv2) (Xs : List Block) (K : Block) :
    decChain p p.pInv2 (encChain p Xs K).1 K = (Xs, (encChain p Xs K).2) := by
  induction Xs generalizing K with
  | nil => rfl
  | cons X Xs ih => simp only [encChain, decChain, decStep_encStep h, ih]

/-- Settles O21, by induction on the blocks: each step hands the next the keystream the encoder handed it. -/
theorem decodeChainInvertsEncodeChain : Obligations.DecodeChainInvertsEncodeChain :=
  fun _ h => ⟨decStep_encStep h, decChain_encChain h⟩

end Sys2Proof.Machine

/-!
No step changes a parameter, so CFG stays as it is and a platform stays legal.
-/
namespace Sys2Proof.Machine

/-! ### The parameters and CFG (R34) -/

/-- A table's entries are those of the identity exactly when it maps every index to itself (R122). -/
theorem Table.toList_eq_identity_iff (T : Table) : T.toList = Table.identity.toList ↔ ∀ j : Fin 64, T[j] = j := by
  constructor
  · intro h j
    have hT : T = Table.identity := Vector.toList_inj.1 h
    simp [hT, Table.identity]
  · intro h
    congr 1
    apply Vector.ext
    intro i hi
    simpa [Table.identity] using h ⟨i, hi⟩

theorem Params.permPlaceholder_eq_true_iff (p : Params) :
    Params.permPlaceholder p = true ↔ ∀ j : Fin 64, p.pFwd[j] = j ∧ p.pInv1[j] = j ∧ p.pInv2[j] = j := by
  simp only [Params.permPlaceholder, Bool.and_eq_true, decide_eq_true_eq, Table.toList_eq_identity_iff, forall_and,
    and_assoc]

/-- Three flags in bits 2, 1 and 0 of a word, 0 above: the layout of CFG (R34). -/
theorem flagsWord_bits : ∀ a b c : Bool,
    ((0 : BitVec 29) ++ BitVec.ofBool a ++ BitVec.ofBool b ++ BitVec.ofBool c).getLsbD 0 = c ∧
    ((0 : BitVec 29) ++ BitVec.ofBool a ++ BitVec.ofBool b ++ BitVec.ofBool c).getLsbD 1 = b ∧
    ((0 : BitVec 29) ++ BitVec.ofBool a ++ BitVec.ofBool b ++ BitVec.ofBool c).getLsbD 2 = a ∧
    ((0 : BitVec 29) ++ BitVec.ofBool a ++ BitVec.ofBool b ++ BitVec.ofBool c).toNat < 2 ^ 3 := by
  decide

/-- The fields of CFG (R34). -/
theorem cfgWord_bits (p : Params) :
    (cfgWord p).getLsbD 0 = decide (p.chainTap = .postPerm) ∧
    (cfgWord p).getLsbD 1 = decide (p.pad0Mode = .zeroIsCorrupt) ∧
    (cfgWord p).getLsbD 2 = Params.permPlaceholder p ∧ (cfgWord p).toNat < 2 ^ 3 :=
  flagsWord_bits _ _ _

/-- A read of CFG returns its rule value at any time, BUSY or not (R34, R215). -/
theorem access_readReg_cfg (s : State) :
    s.access (.readReg 32 0x028) = .next { s with seen := s.seen ++ [.reg 0x028 (cfgWord s.params)] } := by
  have hat : Reg.at 32 0x028 = some .cfg := by decide
  simp only [State.access, hat, State.hostReadReg, Reg.openWhileBusy, Bool.and_false]
  rfl

/-- Settles O57: by `step_params` no step changes a parameter, and CFG is a function of the parameters alone. -/
theorem noStepChangesTheParameters : Obligations.NoStepChangesTheParameters := by
  intro s
  obtain ⟨htap, hpad, hperm, hlt⟩ := cfgWord_bits s.params
  refine ⟨fun t h => ⟨step_params h, congrArg cfgWord (step_params h)⟩,
    cfgWord s.params, rfl, access_readReg_cfg s, ?_, ?_, ?_, hlt⟩
  · rw [htap, decide_eq_true_eq]
  · rw [hpad, decide_eq_true_eq]
  · rw [hperm, Params.permPlaceholder_eq_true_iff]

/-! ### The platform (R205) -/

/-- Replacing one state of a legal platform by a state with the same parameters keeps it legal (R205). -/
theorem Platform.Ok.set {P : Platform} (h : P.Ok) {k : Nat} {s t : State} (hk : P.instances[k]? = some s)
    (ht : t.params = s.params) : Platform.Ok ⟨P.instances.set k t⟩ where
  numInstances := by simpa using h.numInstances
  params u hu := by
    rcases List.mem_or_eq_of_mem_set hu with hu | rfl
    · exact h.params u hu
    · exact ht ▸ h.params s (List.mem_of_getElem? hk)
  windows := by
    obtain ⟨hlt, rfl⟩ := List.getElem?_eq_some_iff.1 hk
    have hbase : t.params.regBase = (P.instances.map fun u => u.params.regBase)[k]'(by simpa using hlt) := by
      simp [ht]
    rw [List.map_set, hbase, List.set_getElem_self]
    exact h.windows

/-- A platform's step takes the next state of the block that moves and no other (R205). -/
theorem Platform.stepAt_of_step {Q : Platform} {k : Nat} {s t : State} (hk : Q.instances[k]? = some s)
    (ht : step s = .next t) : Q.stepAt k = .next ⟨Q.instances.set k t⟩ := by
  simp [Platform.stepAt, hk, ht]

/-- An index past the last block moves none. -/
theorem Platform.stepAt_of_none {Q : Platform} {k : Nat} (hk : Q.instances[k]? = none) : Q.stepAt k = .next Q := by
  simp [Platform.stepAt, hk]

/-- Settles O60: `stepAt` replaces block `k` by the next state of its own step, which keeps the parameters. -/
theorem instancesShareNoState : Obligations.InstancesShareNoState := by
  intro P Q R k hPQ h
  rcases Platform.stepAt_next h with ⟨hk, rfl⟩ | ⟨s, t, hk, ht, rfl⟩
  · exact ⟨id, rfl, fun _ _ => rfl, Q, Platform.stepAt_of_none (hPQ ▸ hk), hPQ.symm⟩
  · have hkQ : Q.instances[k]? = some s := hPQ ▸ hk
    refine ⟨fun hok => hok.set hk (step_params ht), List.length_set, fun j hj => List.getElem?_set_ne hj.symm,
      _, Platform.stepAt_of_step hkQ ht, ?_⟩
    have hlt : k < P.instances.length := (List.getElem?_eq_some_iff.1 hk).1
    have hltQ : k < Q.instances.length := (List.getElem?_eq_some_iff.1 hkQ).1
    rw [List.getElem?_set_self hlt, List.getElem?_set_self hltQ]

end Sys2Proof.Machine

/-!
The frames of R39: what the commands leave unchanged, by what each state update keeps.
-/
namespace Sys2Proof.Machine

/-! ### What an update leaves to the operands -/

namespace State.KeepsOperands

variable {s t : State}

theorem refl (s : State) : s.KeepsOperands s := ⟨rfl, rfl, rfl, rfl, rfl, rfl, rfl, rfl, rfl, rfl⟩

theorem setSeed (h : s.KeepsOperands t) (v : Word) : s.KeepsOperands (t.setSeed v) := { h with }
theorem setDstLen (h : s.KeepsOperands t) (v : Word) : s.KeepsOperands (t.setDstLen v) := { h with }
theorem setData (h : s.KeepsOperands t) (v : Byte) : s.KeepsOperands (t.setData v) := { h with }
theorem setKs (h : s.KeepsOperands t) (v : Block) : s.KeepsOperands (t.setKs v) := { h with }
theorem setVer (h : s.KeepsOperands t) (v : Option Version) : s.KeepsOperands (t.setVer v) := { h with }
theorem complete (h : s.KeepsOperands t) (c : Code) : s.KeepsOperands (t.complete c) := { h with }

theorem writeBytes (h : s.KeepsOperands t) (a : Nat) (bytes : List Byte) : s.KeepsOperands (t.writeBytes a bytes) :=
  { h with }

theorem setWorkingSeed (h : s.KeepsOperands t) (w : Option Word) : s.KeepsOperands (t.setWorkingSeed w) := by
  cases w with
  | none => exact h
  | some v => exact h.setSeed v

theorem trans {u : State} (h : s.KeepsOperands t) (k : t.KeepsOperands u) : s.KeepsOperands u where
  params := k.params.trans h.params
  ie := k.ie.trans h.ie
  srcAddr := k.srcAddr.trans h.srcAddr
  srcLen := k.srcLen.trans h.srcLen
  dstAddr := k.dstAddr.trans h.dstAddr
  pend := k.pend.trans h.pend
  ovr := k.ovr.trans h.ovr
  script := k.script.trans h.script
  seen := k.seen.trans h.seen
  draws := k.draws.trans h.draws

end State.KeepsOperands

/-- A write changes no byte outside the region it writes (R17). -/
theorem State.keepsMemoryOutside_writeBytes (s : State) (a : Nat) (bytes : List Byte) :
    s.KeepsMemoryOutside (s.writeBytes a bytes) ⟨a, bytes.length⟩ := fun x hx => by
  rw [State.writeBytes_mem, Memory.read_writeBytes, if_neg hx]

/-! ### The register commands -/

/-- Settles O36: each command's end state is a chain of register updates, none of them of an operand. -/
theorem registerCommandsFrame : Obligations.RegisterCommandsFrame := by
  intro s
  have start := State.KeepsOperands.refl s
  refine ⟨⟨_, execLcgNext_eq s, ((start.setSeed _).setData _).complete _, rfl, rfl, rfl, fun _ => rfl⟩,
    ⟨_, execKsSeed_eq s, ((start.setKs _).setSeed _).complete _, by simp, by simp, by simp, fun _ => by simp⟩, ?_,
    ⟨_, execMark_eq s, (start.setData _).complete _, rfl, rfl, rfl, rfl, fun _ => rfl⟩⟩
  rw [exec_ksIv, execKsIv_eq]
  split
  · exact ⟨_, rfl, (start.setKs _).complete _, rfl, rfl, rfl, rfl, fun _ => rfl⟩
  · exact ⟨_, rfl, start.complete _, rfl, rfl, rfl, rfl, fun _ => rfl⟩

/-! ### The commands on the block operand -/

/-- What a command on the block operand leaves unchanged, whether or not the operand fits; KS too where the command's
function hands it on as it was. -/
theorem onBlock_frame (f : Block → Block → Block × Block) (s : State) :
    ∃ t, onBlock f s = .next t ∧ s.KeepsOperands t ∧ t.seed = s.seed ∧ t.data = s.data ∧ t.dstLen = s.dstLen ∧
      t.status.ver = s.status.ver ∧ ((∀ X K, (f X K).2 = K) → t.ks = s.ks) ∧
      s.KeepsMemoryOutside t (blockOperand s) := by
  have start := State.KeepsOperands.refl s
  rcases onBlock_cases f s with h | ⟨-, h⟩
  · exact ⟨_, h, start.complete _, rfl, rfl, rfl, rfl, fun _ => rfl, fun _ _ => rfl⟩
  · refine ⟨_, h, ((start.writeBytes _ _).setKs _).complete _, rfl, rfl, rfl, rfl, fun hK => hK _ _, fun a ha => ?_⟩
    exact s.keepsMemoryOutside_writeBytes s.dstAddr.toNat _ a (by simpa [blockOperand, blockLen] using ha)

/-- The commands on the block operand are `onBlock` of a function; that of a permutation hands KS on as it was (R123). -/
theorem exec_eq_onBlock (s : State) {i : Instr}
    (hi : i ∈ [Instr.shuf2, .unshuf1, .unshuf2, .encBlk, .decBlk1, .decBlk2]) :
    ∃ f, exec i s = onBlock f s ∧ (i ∈ [Instr.shuf2, .unshuf1, .unshuf2] → ∀ X K, (f X K).2 = K) := by
  simp only [List.mem_cons, List.not_mem_nil, or_false] at hi
  rcases hi with rfl | rfl | rfl | rfl | rfl | rfl
  · exact ⟨_, execShuf2_eq s, fun _ _ _ => rfl⟩
  · exact ⟨_, execUnshuf1_eq s, fun _ _ _ => rfl⟩
  · exact ⟨_, execUnshuf2_eq s, fun _ _ _ => rfl⟩
  · exact ⟨_, execEncBlk_eq s, by simp⟩
  · exact ⟨_, execDecBlk1_eq s, by simp⟩
  · exact ⟨_, execDecBlk2_eq s, by simp⟩

/-- Settles O37: the six commands are `onBlock` of a function, whose frame is that of `onBlock_frame`. -/
theorem blockCommandsFrame : Obligations.BlockCommandsFrame := by
  intro s i hi
  obtain ⟨f, hf, hperm⟩ := exec_eq_onBlock s hi
  obtain ⟨t, ht, hops, hseed, hdata, hlen, hver, hks, hmem⟩ := onBlock_frame f s
  exact ⟨t, hf.trans ht, hops, hseed, hdata, hlen, hver, fun hp => hks (hperm hp), hmem⟩

/-! ### ENCODE -/

theorem encodeResult_keepsOperands (s : State) : s.KeepsOperands (encodeResult s) :=
  ((((((State.KeepsOperands.refl s).setDstLen _).writeBytes _ _).setSeed _).setKs _).setDstLen _).complete _

/-- ENCODE of a non-empty source writes its destination region and no other byte (R150). -/
theorem encodeResult_keepsMemoryOutside {s : State} (hn : s.srcLen.toNat ≠ 0) :
    s.KeepsMemoryOutside (encodeResult s) (encodeTarget s) := fun a ha => by
  have hlen := encodeBuffer_length s.params (s.mem.readBytes s.srcAddr.toNat s.srcLen.toNat) s.seed (by simpa using hn)
  rw [Memory.readBytes_length] at hlen
  rw [encodeResult_mem, Memory.read_writeBytes, hlen]
  exact if_neg ha

/-- Settles O38: ENCODE ends before it writes memory, or writes its destination. -/
theorem encodeFrame : Obligations.EncodeFrame := by
  intro s
  rw [exec_encode]
  rcases execEncode_cases s with ⟨c, -, h⟩ | ⟨hn, -, -, -, h⟩
  · exact ⟨_, h, ((State.KeepsOperands.refl s).setDstLen _).complete _, rfl, rfl, fun _ _ => rfl⟩
  · exact ⟨_, h, encodeResult_keepsOperands s, by simp, by simp, encodeResult_keepsMemoryOutside hn⟩

/-! ### DECODE -/

/-- The working seed that DECODE writes to SEED, where there is one (R161). -/
def Decoded.workingSeed : Decoded → Option Word
  | .corruptPadding _ _ w _ => w
  | .ok _ _ _ w _ => w
  | .tooShort | .unknownVersion | .integrityMismatch => none

@[simp] theorem decodePayload_workingSeed (p : Params) (v : Version) (payload : List Byte) (w : Option Word)
    (K : Block) : (decodePayload p v payload w K).workingSeed = w := by
  unfold decodePayload
  simp only
  split <;> rfl

/-- Only a v3 buffer has a working seed (R160). -/
theorem decodeBuffer_workingSeed_eq_none (p : Params) {B : List Byte} {v : Version} (hl : 261 ≤ B.length)
    (hv : versionOf B.length = some v) (hne : v ≠ .v3) : (decodeBuffer p B).workingSeed = none := by
  rcases decodeBuffer_cases p B hl hv with ⟨-, h⟩ | ⟨-, h⟩ | ⟨rfl, -⟩
  · rw [h, decodePayload_workingSeed]
  · rw [h, decodePayload_workingSeed]
  · exact absurd rfl hne

/-- A source whose length modulo 256 is not 5 is no v3 buffer (R156). -/
theorem versionOf_ne_v3 {len : Nat} {v : Version} (hv : versionOf len = some v) (h : len % 256 ≠ 5) : v ≠ .v3 := by
  rintro rfl
  simp only [versionOf, h, if_false] at hv
  split at hv
  · cases hv
  · split at hv <;> cases hv

/-- What the end of DECODE leaves unchanged, for a result that fits its destination of `m` bytes. -/
theorem finishDecode_frame (s : State) (d : Nat) {m : Nat} {r : Decoded} (hr : r.Fits m) :
    ∃ t, finishDecode s d r = .next t ∧ s.KeepsOperands t ∧ t.data = s.data ∧
      t.seed = r.workingSeed.getD s.seed ∧ s.KeepsMemoryOutside t ⟨d, m⟩ := by
  have start := State.KeepsOperands.refl s
  cases r with
  | tooShort => exact ⟨_, rfl, start.complete _, rfl, rfl, fun _ _ => rfl⟩
  | unknownVersion => exact ⟨_, rfl, start.complete _, rfl, rfl, fun _ _ => rfl⟩
  | integrityMismatch => exact ⟨_, rfl, start.complete _, rfl, rfl, fun _ _ => rfl⟩
  | corruptPadding v Y w K =>
    subst hr
    refine ⟨_, rfl, (((start.writeBytes _ _).setKs _).setWorkingSeed _).complete _, by simp,
      by simp [Decoded.workingSeed], fun a ha => ?_⟩
    simpa using s.keepsMemoryOutside_writeBytes d Y a ha
  | ok v Y n w K =>
    obtain ⟨rfl, -⟩ := hr
    refine ⟨_, rfl, ((((start.writeBytes _ _).setKs _).setWorkingSeed _).setDstLen _).complete _, by simp,
      by simp [Decoded.workingSeed], fun a ha => ?_⟩
    simpa using s.keepsMemoryOutside_writeBytes d Y a ha

theorem decodeStart_keepsOperands (s : State) (v : Option Version) : s.KeepsOperands (decodeStart s v) :=
  ((State.KeepsOperands.refl s).setDstLen _).setVer _

/-- Settles O39: DECODE ends before it writes memory, or ends as `finishDecode_frame` says. -/
theorem decodeFrame : Obligations.DecodeFrame := by
  intro s
  rw [exec_decode]
  rcases execDecode_cases s with ⟨c, v, -, h⟩ | ⟨v, -, hl, hv, -, -, h⟩
  · exact ⟨_, h, (decodeStart_keepsOperands s v).complete c, rfl, fun _ => rfl, fun _ _ => rfl⟩
  · have hlB : 261 ≤ (s.mem.readBytes s.srcAddr.toNat s.srcLen.toNat).length := by simpa using hl
    have hvB : versionOf (s.mem.readBytes s.srcAddr.toNat s.srcLen.toNat).length = some v := by simpa using hv
    have hfits := decodeBuffer_fits s.params hlB hvB
    rw [Memory.readBytes_length] at hfits
    obtain ⟨t, ht, hops, hdata, hseed, hmem⟩ := finishDecode_frame (decodeStart s (some v)) s.dstAddr.toNat hfits
    refine ⟨t, h.trans ht, (decodeStart_keepsOperands s _).trans hops, hdata, fun hlen => ?_,
      fun a ha => hmem a (ha v hv)⟩
    rw [hseed, decodeBuffer_workingSeed_eq_none s.params hlB hvB (versionOf_ne_v3 hv hlen)]
    rfl

end Sys2Proof.Machine

/-!
The register window (R23 to R35): which access reaches a register, the bits of its word, and what a write sets.
-/
namespace Sys2Proof.Machine

/-! ### The register map (R23) -/

/-- A 32-bit access at a register's offset reaches it (R23, R57). -/
theorem Reg.at_offset (r : Reg) : Reg.at 32 r.offset = some r := by
  cases r with
  | reserved i =>
    have hlt := i.isLt
    change Reg.at 32 (0x02C + 4 * i.val) = some (.reserved i)
    rw [Reg.at, if_neg (by omega), if_neg (by omega), if_pos (by omega),
      show (0x02C + 4 * i.val - 0x02C) / 4 = i.val by omega]
    simp
  | ksw i =>
    have hlt := i.isLt
    change Reg.at 32 (0x100 + 4 * i.val) = some (.ksw i)
    rw [Reg.at, if_neg (by omega), if_pos (by omega), show (0x100 + 4 * i.val - 0x100) / 4 = i.val by omega]
    simp
  | _ => rfl

/-- Every aligned offset of the window is a register's (R23). -/
theorem Reg.exists_offset {x : Nat} (h4 : x % 4 = 0) (hx : x < 0x200) : ∃ r : Reg, r.offset = x := by
  by_cases hk : 0x100 ≤ x
  · exact ⟨.ksw ⟨(x - 0x100) / 4, by omega⟩, by simp only [Reg.offset]; omega⟩
  · by_cases hr : 0x02C ≤ x
    · exact ⟨.reserved ⟨(x - 0x02C) / 4, by omega⟩, by simp only [Reg.offset]; omega⟩
    · obtain ⟨k, rfl⟩ : ∃ k, x = 4 * k := ⟨x / 4, by omega⟩
      have : k < 11 := by omega
      interval_cases k
      exacts [⟨.cmd, rfl⟩, ⟨.status, rfl⟩, ⟨.ctrl, rfl⟩, ⟨.seed, rfl⟩, ⟨.srcAddr, rfl⟩, ⟨.srcLen, rfl⟩, ⟨.dstAddr, rfl⟩,
        ⟨.dstLen, rfl⟩, ⟨.data, rfl⟩, ⟨.id, rfl⟩, ⟨.cfg, rfl⟩]

/-- A register is reached at its offset, with 32 bits, and by no other access (R23, R57). -/
theorem Reg.at_eq_some_iff {width x : Nat} {r : Reg} : Reg.at width x = some r ↔ width = 32 ∧ x = r.offset := by
  constructor
  · intro h
    have hok : ¬ (width ≠ 32 ∨ x % 4 ≠ 0 ∨ 0x200 ≤ x) := fun hn => by simp [Reg.at_eq_none.2 hn] at h
    obtain ⟨q, rfl⟩ : ∃ q : Reg, q.offset = x := Reg.exists_offset (by omega) (by omega)
    obtain rfl : width = 32 := by omega
    rw [Reg.at_offset, Option.some_inj] at h
    exact ⟨rfl, congrArg Reg.offset h⟩
  · rintro ⟨rfl, rfl⟩
    exact Reg.at_offset r

/-- Settles O48: by `Reg.at_eq_some_iff`, and `Reg.offset` read off as the table, register by register. -/
theorem registerMapIsOneToOne : Obligations.RegisterMapIsOneToOne := by
  refine fun width x r => ⟨Reg.at_eq_some_iff, Reg.at_eq_some_iff.trans (and_congr_right fun _ => ?_)⟩
  cases r <;> simp [Reg.offset]

end Sys2Proof.Machine

/-!
The words of the registers (R23 to R35): the fields of STATUS, the bytes of KSW, and the bits a write of the host sets.
-/
namespace Sys2Proof.Machine

/-! ### KSW (R35) -/

theorem toNat_append_eq_add {m n : Nat} (x : BitVec m) (y : BitVec n) :
    (x ++ y).toNat = x.toNat * 2 ^ n + y.toNat := by
  rw [BitVec.toNat_append, ← Nat.shiftLeft_add_eq_or_of_lt y.isLt, Nat.shiftLeft_eq]

/-- `BE32` in integers (R15). -/
theorem be32_toNat (b0 b1 b2 b3 : Byte) :
    (be32 b0 b1 b2 b3).toNat = b3.toNat + b2.toNat * 2 ^ 8 + b1.toNat * 2 ^ 16 + b0.toNat * 2 ^ 24 := by
  simp only [be32, toNat_append_eq_add]
  omega

/-- `KSW[i]` is `BE32` of its four bytes, the highest first (R35). -/
theorem kswWord_eq_be32 (K : Block) (i : Fin 64) :
    kswWord K i = be32 K[4 * i.val + 3] K[4 * i.val + 2] K[4 * i.val + 1] K[4 * i.val] := rfl

@[simp] theorem setKsw_getElem (K : Block) (i : Fin 64) (v : Word) (j : Nat) (h : j < 256) :
    (setKsw K i v)[j] = if j / 4 = i.val then v.extractLsb' (8 * (j % 4)) 8 else K[j] := by
  simp [setKsw]

/-- Byte `k` of `KSW[i]` after a write (R35). -/
theorem setKsw_getElem_word (K : Block) (i : Fin 64) (v : Word) (k : Nat) (h : k < 4) :
    (setKsw K i v)[4 * i.val + k] = v.extractLsb' (8 * k) 8 := by
  rw [setKsw_getElem, if_pos (by omega), show (4 * i.val + k) % 4 = k by omega]

/-- `KSW[i]` reads back what was written to it (R35). -/
theorem kswWord_setKsw_self (K : Block) (i : Fin 64) (v : Word) : kswWord (setKsw K i v) i = v := by
  have h0 : (setKsw K i v)[4 * i.val] = v.extractLsb' 0 8 := setKsw_getElem_word K i v 0 (by omega)
  rw [kswWord_eq_be32, setKsw_getElem_word K i v 3 (by omega), setKsw_getElem_word K i v 2 (by omega),
    setKsw_getElem_word K i v 1 (by omega), h0, be32_be32Bytes]

/-- A write to `KSW[i]` leaves every other `KSW[j]` as it was (R35). -/
theorem kswWord_setKsw_of_ne (K : Block) {i j : Fin 64} (v : Word) (h : j ≠ i) :
    kswWord (setKsw K i v) j = kswWord K j := by
  have hne : j.val ≠ i.val := fun e => h (Fin.ext e)
  have other : ∀ k (_ : k < 4), (setKsw K i v)[4 * j.val + k] = K[4 * j.val + k] := fun k hk => by
    rw [setKsw_getElem, if_neg (by omega)]
  have h0 : (setKsw K i v)[4 * j.val] = K[4 * j.val] := other 0 (by omega)
  rw [kswWord_eq_be32, kswWord_eq_be32, other 3 (by omega), other 2 (by omega), other 1 (by omega), h0]

/-! ### Writes to an idle block (R26 to R35) -/

/-- On an idle block a 32-bit write at a register's offset is accepted (R23, R57). -/
theorem access_writeReg_of_idle {s : State} (hb : s.status.busy = false) (r : Reg) (v : Word) :
    s.access (.writeReg 32 r.offset v) = .next (s.acceptWrite v r) := by
  simp [State.access, Reg.at_offset, State.hostWriteReg, hb]

/-- Settles O46: the word by `be32_toNat`, the write by what `setKsw` leaves at each byte. -/
theorem kswPacksKsLittleEndian : Obligations.KswPacksKsLittleEndian := by
  refine ⟨fun K i => be32_toNat _ _ _ _, fun s i v hb => ?_⟩
  refine ⟨s.setKs (setKsw s.ks i v), access_writeReg_of_idle hb (.ksw i) v, fun k hk => ?_, fun j hj hne => ?_, rfl⟩
  · exact setKsw_getElem_word s.ks i v k hk
  · exact (setKsw_getElem s.ks i v j hj).trans (if_neg hne)

/-- A word whose low `n` bits are set and whose others are 0 selects those bits: of a register with `n` bits of storage
a write sets these, and the others read 0. -/
theorem setWidth_extractLsb'_eq_select {n : Nat} (v : Word) (x : BitVec n) :
    (v.extractLsb' 0 n).setWidth 32 =
      v &&& (BitVec.allOnes n).setWidth 32 ||| x.setWidth 32 &&& ~~~(BitVec.allOnes n).setWidth 32 := by
  apply BitVec.eq_of_getLsbD_eq
  intro i hi
  by_cases hn : i < n
  · simp [hi, hn]
  · simp [hn, BitVec.getLsbD_of_ge x i (by omega)]

theorem ctrlWord_eq_setWidth (ie : Bool) : ctrlWord ie = (BitVec.ofBool ie).setWidth 32 := by
  cases ie <;> decide

/-- A register takes the written value in its writable bits and keeps the others (R26 to R35). -/
theorem regValue_acceptWrite_self (s : State) (v : Word) {r : Reg} (hcmd : r ≠ .cmd) (hst : r ≠ .status) :
    (s.acceptWrite v r).regValue r = v &&& r.writable ||| s.regValue r &&& ~~~r.writable := by
  have allBits : ∀ x : Word, v = v &&& 0xFFFFFFFF ||| x &&& ~~~0xFFFFFFFF := fun x => by
    have hx : (0xFFFFFFFF : Word) = BitVec.allOnes 32 := rfl
    simp only [hx, BitVec.and_allOnes, BitVec.not_allOnes, BitVec.and_zero, BitVec.or_zero]
  have noBits : ∀ x : Word, x = v &&& 0 ||| x &&& ~~~0 := fun x => by
    simp only [BitVec.ofNat_eq_ofNat, BitVec.not_zero, BitVec.and_zero, BitVec.and_allOnes, BitVec.zero_or]
  cases r with
  | cmd => exact absurd rfl hcmd
  | status => exact absurd rfl hst
  | ctrl =>
    have hbit : BitVec.ofBool (v.getLsbD 0) = v.extractLsb' 0 1 := by
      apply BitVec.eq_of_getLsbD_eq
      simp
    simp only [State.acceptWrite, State.regValue, State.setIe_ie, ctrlWord_eq_setWidth, hbit]
    exact setWidth_extractLsb'_eq_select v (BitVec.ofBool s.ie)
  | data => exact setWidth_extractLsb'_eq_select v s.data
  | ksw i => exact (kswWord_setKsw_self s.ks i v).trans (allBits _)
  | seed | srcAddr | srcLen | dstAddr => exact allBits _
  | dstLen | id | cfg | reserved i => exact noBits _

/-- An accepted write to a register changes the value of no other; that to CMD has rules of its own (R190). -/
theorem regValue_acceptWrite_of_ne (s : State) (v : Word) {q r : Reg} (hcmd : r ≠ .cmd) (h : q ≠ r) :
    (s.acceptWrite v r).regValue q = s.regValue q := by
  cases r with
  | cmd => exact absurd rfl hcmd
  | ksw i =>
    cases q with
    | ksw j => exact kswWord_setKsw_of_ne s.ks v fun e => h (congrArg Reg.ksw e)
    | _ => rfl
  | dstLen | id | cfg | reserved i => rfl
  | _ => cases q <;> simp_all [State.acceptWrite, State.regValue]

/-- Settles O45: the write is accepted, and sets its own register alone. -/
theorem idleRegisterWritesSetTheWritableBits : Obligations.IdleRegisterWritesSetTheWritableBits := by
  intro s r v hb hcmd hst
  refine ⟨_, access_writeReg_of_idle hb r v, regValue_acceptWrite_self s v hcmd hst,
    fun q hq => regValue_acceptWrite_of_ne s v hcmd hq, ?_⟩
  cases r with
  | cmd => exact absurd rfl hcmd
  | _ => exact ⟨rfl, rfl, rfl, rfl, rfl, rfl⟩

/-! ### STATUS (R25, R185) -/

/-- STATUS bit by bit (R25). -/
theorem Status.word_getLsbD (t : Status) (i : Nat) :
    t.word.getLsbD i =
      if i = 0 then t.busy else if i = 1 then t.done else if i = 2 then t.ovr else if i = 3 then false
      else if i < 8 then t.err.num.getLsbD (i - 4) else (verField t.ver).getLsbD (i - 8) := by
  simp only [Status.word, BitVec.getLsbD_append, BitVec.getLsbD_ofBool]
  match i with
  | 0 | 1 | 2 | 3 => rfl
  | i + 4 =>
    by_cases he : i < 4
    · simp [he, show i + 4 < 8 by omega]
    · by_cases hv : i - 4 < 2
      · simp [he, hv, show ¬ i + 4 < 8 by omega]
      · simp [he, hv, show ¬ i + 4 < 8 by omega, BitVec.getLsbD_of_ge (verField t.ver) (i - 4) (by omega)]

/-- ERR stands in bits 7 to 4 (R25). -/
theorem Status.word_err (t : Status) : t.word.extractLsb' 4 4 = t.err.num := by
  apply BitVec.eq_of_getLsbD_eq
  intro i hi
  rw [BitVec.getLsbD_extractLsb', Status.word_getLsbD, if_neg (by omega), if_neg (by omega), if_neg (by omega),
    if_neg (by omega), if_pos (by omega)]
  simp [hi]

/-- VER stands in bits 9 and 8 (R25). -/
theorem Status.word_ver (t : Status) : t.word.extractLsb' 8 2 = verField t.ver := by
  apply BitVec.eq_of_getLsbD_eq
  intro i hi
  rw [BitVec.getLsbD_extractLsb', Status.word_getLsbD, if_neg (by omega), if_neg (by omega), if_neg (by omega),
    if_neg (by omega), if_neg (by omega)]
  simp [hi]

/-- The bits of STATUS above VER read 0 (R25). -/
theorem Status.word_toNat_lt (t : Status) : t.word.toNat < 2 ^ 10 := by
  refine Nat.lt_pow_two_of_testBit _ fun i hi => ?_
  rw [BitVec.testBit_toNat, Status.word_getLsbD, if_neg (by omega), if_neg (by omega), if_neg (by omega),
    if_neg (by omega), if_neg (by omega), BitVec.getLsbD_of_ge _ _ (by omega)]

/-- A write to STATUS clears DONE and OVR where it has a 1, and no other bit (R25). -/
theorem Status.writeOneToClear_word (t : Status) (v : Word) :
    (t.writeOneToClear v).word = t.word &&& ~~~(v &&& 0x00000006) := by
  apply BitVec.eq_of_getLsbD_eq
  intro i hi
  rw [BitVec.getLsbD_and, BitVec.getLsbD_not, BitVec.getLsbD_and, Status.word_getLsbD, Status.word_getLsbD]
  match i with
  | 0 => simp [Status.writeOneToClear]
  | 1 => simp [Status.writeOneToClear]
  | 2 => simp [Status.writeOneToClear]
  | i + 3 =>
    have h6 : (0x00000006 : Word).getLsbD (i + 3) = false :=
      Nat.testBit_lt_two_pow (Nat.lt_of_lt_of_le (by decide : 6 < 2 ^ 3) (Nat.pow_le_pow_right (by decide) (by omega)))
    simp only [h6, hi, Status.writeOneToClear]
    simp

theorem access_writeReg_status (s : State) (v : Word) :
    s.access (.writeReg 32 0x004 v) = .next (s.setStatus (s.status.writeOneToClear v)) := by
  have hat : Reg.at 32 0x004 = some .status := Reg.at_offset .status
  simp [State.access, hat, State.hostWriteReg, Reg.lockedWhileBusy, State.acceptWrite]

/-- Settles O44: the word by its fields, the write by `Status.writeOneToClear_word`. -/
theorem statusWordHoldsItsFields : Obligations.StatusWordHoldsItsFields := by
  intro s
  refine ⟨fun v => ⟨_, access_writeReg_status s v, s.status.writeOneToClear_word v, rfl⟩, s.status.word_getLsbD 0,
    s.status.word_getLsbD 1, s.status.word_getLsbD 2, s.status.word_getLsbD 3, s.status.word_err, s.status.word_ver,
    s.status.word_toNat_lt, ?_, ?_, ?_⟩
  · cases s.status.err <;> decide
  · rw [Status.word_err]
    cases s.status.err <;> decide
  · rw [Status.word_ver]
    rcases s.status.ver with _ | _ | _ | _ <;> decide

/-! ### Reset (R23, R210) -/

/-- Settles O54, register by register. -/
theorem registersReadTheirResetValues : Obligations.RegistersReadTheirResetValues := by
  refine ⟨fun r hid hcfg => ?_, rfl, ?_, rfl⟩
  · cases r with
    | id => exact absurd rfl hid
    | cfg => exact absurd rfl hcfg
    | ksw i => simp [State.regValue, State.reset, kswWord]
    | _ => rfl
  · decide

end Sys2Proof.Machine

/-!
The step (R190, R191): the core's turn, and what each kind of step does to BUSY and DONE.
-/
namespace Sys2Proof.Machine

/-! ### The core's turn (R191) -/

/-- A command's word decodes to the command (R70, R71). -/
theorem decode_encode (i : Instr) : Sys2Proof.decode (encode i) = .ok i := by
  cases i <;> decide

theorem State.scheduled_pend (s : State) : s.scheduled.pend = s.pend := by
  rcases s.scheduled_eq with h | h <;> rw [h]
  rfl

theorem State.completionStep_of_decode {s : State} {i : Instr} (h : Sys2Proof.decode s.pend = .ok i) :
    s.completionStep = exec i s := by
  rw [State.completionStep, h]

theorem step_of_turn_core {s : State} (h : s.turn = .core) : step s = s.scheduled.completionStep := by
  rw [step, State.advance, h]

/-- A busy block whose host has no access left, or waits, takes the core's step, and no choice is drawn (R75, R191). -/
theorem step_of_busy_of_waiting {s : State} (hb : s.status.busy = true)
    (hs : s.script = [] ∨ s.script.head? = some .wait) : step s = s.completionStep := by
  have hcore : s.turn = .core ∧ s.contended = false := by
    rcases hscript : s.script with _ | ⟨a, rest⟩
    · simp [State.turn, State.contended, hscript, hb]
    · obtain rfl : a = .wait := by simpa [hscript] using hs
      simp [State.turn, State.contended, hscript, hb]
  obtain ⟨hturn, hcont⟩ := hcore
  rw [step_of_turn_core hturn, State.scheduled, hcont]
  rfl

/-- The command word of `i`, taken as a number, is placed as that word (R70). -/
theorem withFetchWord_encode (s : State) (i : Instr) :
    s.withFetchWord 32 (encode i).toNat = s.placeCommand (encode i) := by
  simp [State.withFetchWord, Nat.mod_eq_of_lt (encode i).isLt]

/-- Settles O5: the core's step is the completion step, which performs the command that PEND decodes to. -/
theorem stepRunsTheDecodedCommand : Obligations.StepRunsTheDecodedCommand := by
  refine fun s i => ⟨fun hd ht => ?_, fun hd hb hs => ?_, s.scheduled_eq, ?_⟩
  · rw [step_of_turn_core ht, State.completionStep_of_decode (by rwa [State.scheduled_pend])]
  · rw [step_of_busy_of_waiting hb hs, State.completionStep_of_decode hd]
  · have hd : Sys2Proof.decode (s.placeCommand (encode i)).pend = .ok i := decode_encode i
    rw [withFetchWord_encode, step_of_busy_of_waiting rfl (.inl rfl), State.completionStep_of_decode hd]

/-! ### BUSY and DONE (R190 to R192) -/

@[simp] theorem State.hostReadReg_status (s : State) (r : Reg) : (s.hostReadReg r).status = s.status := by
  unfold State.hostReadReg
  split <;> rfl

@[simp] theorem State.hostReadByte_status (s : State) (a : Nat) : (s.hostReadByte a).status = s.status := by
  unfold State.hostReadByte
  split <;> rfl

/-- Neither BUSY nor DONE goes from 0 in `s` to 1 in `t`. -/
structure State.SetsNoFlag (s t : State) : Prop where
  busy : t.status.busy = true → s.status.busy = true
  done : t.status.done = true → s.status.done = true

theorem State.SetsNoFlag.of_eq {s t : State} (h : t.status = s.status) : s.SetsNoFlag t where
  busy hb := h ▸ hb
  done hd := h ▸ hd

/-- A write of the host to a register is the issue of a command, to CMD, or sets neither flag (R190, R213). -/
theorem State.hostWriteReg_flags (s : State) (r : Reg) (v : Word) :
    (r = .cmd ∧ s.hostWriteReg r v = s.issue v) ∨ s.SetsNoFlag (s.hostWriteReg r v) := by
  unfold State.hostWriteReg
  split
  · exact .inr ⟨id, id⟩
  · cases r with
    | cmd => exact .inl ⟨rfl, rfl⟩
    | status => exact .inr ⟨id, fun h => (Bool.and_eq_true_iff.1 h).1⟩
    | _ => exact .inr (.of_eq rfl)

/-- An access of the host is the issue of a command, by a write to CMD, or sets neither BUSY nor DONE (R190, R210). -/
theorem access_flags {s t : State} {a : Access} (h : s.access a = .next t) :
    (∃ v, a = .writeReg 32 0x000 v ∧ t = s.issue v) ∨ s.SetsNoFlag t := by
  rcases access_cases s a with ⟨q, e⟩ | ⟨r, _, _, -, -, e⟩ | ⟨r, _, _, v, rfl, hr, e⟩ | ⟨x, -, e⟩ | ⟨x, b, -, -, e⟩ |
    ⟨-, e⟩ | ⟨-, e⟩ <;> rw [e] at h <;> cases h
  · exact .inr (.of_eq (s.hostReadReg_status r))
  · obtain ⟨rfl, rfl⟩ := Reg.at_eq_some_iff.1 hr
    rcases s.hostWriteReg_flags r v with ⟨rfl, h⟩ | h
    · exact .inl ⟨v, rfl, h⟩
    · exact .inr h
  · exact .inr (.of_eq (s.hostReadByte_status x))
  · exact .inr (.of_eq rfl)
  · exact .inr (.of_eq rfl)
  · exact .inr ⟨nofun, nofun⟩

theorem State.Completes.next_status {s t : State} (h : s.Completes (.next t)) :
    t.status.busy = false ∧ t.status.done = true := by
  obtain ⟨u, c, e, -⟩ := h
  cases e
  exact ⟨rfl, rfl⟩

theorem State.scheduled_status (s : State) : s.scheduled.status = s.status := by
  rcases s.scheduled_eq with h | h <;> rw [h]
  rfl

/-- Settles O58: an idle step changes nothing, the core's step completes, and an access is as `access_flags` says. -/
theorem onlyIssueSetsBusyAndOnlyCompletionSetsDone : Obligations.OnlyIssueSetsBusyAndOnlyCompletionSetsDone := by
  intro s t h
  rcases step_cases s with ⟨-, -, e⟩ | ⟨hb, e⟩ | ⟨a, rest, hs, -, e⟩ <;> rw [e] at h
  · cases h
    exact ⟨fun hf ht => absurd ht (by simp [hf]), fun hf ht => absurd ht (by simp [hf])⟩
  · obtain ⟨hbt, -⟩ := (h ▸ completionStep_completes s.scheduled).next_status
    exact ⟨fun hf => absurd hb (by simp [hf]), fun _ _ => ⟨hb, hbt⟩⟩
  · have hst : (s.scheduled.setScript rest).status = s.status := s.scheduled_status
    rcases access_flags h with ⟨v, rfl, rfl⟩ | ⟨hbusy, hdone⟩
    · exact ⟨fun _ _ => ⟨v, hs, rfl, rfl⟩, fun _ => nofun⟩
    · rw [hst] at hbusy hdone
      exact ⟨fun hf ht => absurd (hbusy ht) (by simp [hf]), fun hf ht => absurd (hdone ht) (by simp [hf])⟩

end Sys2Proof.Machine

/-!
The host's accesses (R57, R58, R214): which are refused and under which name, and what the accepted byte accesses to
buffer memory do.
-/
namespace Sys2Proof.Machine

/-! ### Refused accesses (R57, R214) -/

/-- A register read is refused exactly outside the interface (R57). -/
theorem access_readReg_eq_refused_iff {s : State} {width x : Nat} {q : Refusal} :
    s.access (.readReg width x) = .refused q ↔
      q = .registerAccess width x ∧ (width ≠ 32 ∨ x % 4 ≠ 0 ∨ 0x200 ≤ x) := by
  rw [← Reg.at_eq_none]
  cases hr : Reg.at width x <;> simp [State.access, hr, @eq_comm _ q]

/-- So is a register write (R57), while BUSY = 1 too. -/
theorem access_writeReg_eq_refused_iff {s : State} {width x : Nat} {v : Word} {q : Refusal} :
    s.access (.writeReg width x v) = .refused q ↔
      q = .registerAccess width x ∧ (width ≠ 32 ∨ x % 4 ≠ 0 ∨ 0x200 ≤ x) := by
  rw [← Reg.at_eq_none]
  cases hr : Reg.at width x <;> simp [State.access, hr, @eq_comm _ q]

/-- The buffer accesses outside the interface (R57; assumption 8 for the width). -/
theorem not_bufferAccessOk_iff {p : Params} {width x : Nat} :
    ¬ bufferAccessOk p width x ↔ width ≠ 8 ∨ p.memSize ≤ x := by
  rw [not_and_or, not_lt]

/-- A buffer read is refused exactly outside the interface (R57; assumption 8 for the width). -/
theorem access_readMem_eq_refused_iff {s : State} {width x : Nat} {q : Refusal} :
    s.access (.readMem width x) = .refused q ↔
      q = .bufferAccess width x ∧ (width ≠ 8 ∨ s.params.memSize ≤ x) := by
  rw [← not_bufferAccessOk_iff, State.access]
  split <;> simp [*, @eq_comm _ q]

/-- A buffer write is refused outside the interface (R57), and inside it while BUSY = 1 (R214). -/
theorem access_writeMem_eq_refused_iff {s : State} {width x : Nat} {b : Byte} {q : Refusal} :
    s.access (.writeMem width x b) = .refused q ↔
      (q = .bufferAccess width x ∧ (width ≠ 8 ∨ s.params.memSize ≤ x)) ∨
      (q = .bufferWriteWhileBusy x ∧ bufferAccessOk s.params width x ∧ s.status.busy = true) := by
  rw [← not_bufferAccessOk_iff, State.access]
  by_cases hok : bufferAccessOk s.params width x
  · obtain ⟨rfl, hx⟩ := hok
    cases hb : s.status.busy <;> simp [bufferAccessOk, hx, @eq_comm _ q]
  · simp [hok, @eq_comm _ q]

/-- Settles O59: idling and completing answer a next state, and `access` refuses only what these statements name. -/
theorem onlyAHostAccessIsRefused : Obligations.OnlyAHostAccessIsRefused := by
  intro s q h
  rcases step_cases s with ⟨-, -, e⟩ | ⟨-, e⟩ | ⟨a, rest, hs, -, e⟩ <;> rw [e] at h
  · cases h
  · obtain ⟨u, c, hu, -⟩ := completionStep_completes s.scheduled
    cases hu.symm.trans h
  · have hp : (s.scheduled.setScript rest).params = s.params := s.scheduled_keepsStorage.params
    have hst : (s.scheduled.setScript rest).status = s.status := s.scheduled_status
    refine ⟨a, rest, hs, ?_⟩
    cases a with
    | readReg width x =>
      obtain ⟨hq, hout⟩ := access_readReg_eq_refused_iff.1 h
      exact .inl ⟨width, x, .inl rfl, hq, hout⟩
    | writeReg width x v =>
      obtain ⟨hq, hout⟩ := access_writeReg_eq_refused_iff.1 h
      exact .inl ⟨width, x, .inr ⟨v, rfl⟩, hq, hout⟩
    | readMem width x =>
      obtain ⟨hq, hout⟩ := access_readMem_eq_refused_iff.1 h
      exact .inr (.inl ⟨width, x, .inl rfl, hq, hp ▸ hout⟩)
    | writeMem width x b =>
      rcases access_writeMem_eq_refused_iff.1 h with ⟨hq, hout⟩ | ⟨hq, ⟨rfl, -⟩, hb⟩
      · exact .inr (.inl ⟨width, x, .inr ⟨b, rfl⟩, hq, hp ▸ hout⟩)
      · exact .inr (.inr ⟨x, b, rfl, hq, hst ▸ hb⟩)
    | wait => cases h
    | reset => cases h

/-! ### Reserved offsets (R57) -/

/-- At a reserved register's offset a read returns 0 and a write changes nothing, BUSY or not (R57, R213, R215). -/
theorem access_reserved (s : State) (i : Fin 53) (v : Word) :
    s.access (.readReg 32 (Reg.reserved i).offset) = .next (s.saw (.reg (Reg.reserved i).offset 0)) ∧
      s.access (.writeReg 32 (Reg.reserved i).offset v) = .next s := by
  constructor
  · simp [State.access, Reg.at_offset, State.hostReadReg, Reg.openWhileBusy, State.regValue]
  · simp [State.access, Reg.at_offset, State.hostWriteReg, Reg.lockedWhileBusy, State.acceptWrite]

/-- Settles O47: the refusals by the statement of each kind of access, the reserved offsets by `access_reserved`. -/
theorem accessesOutsideTheInterfaceAreRefused : Obligations.AccessesOutsideTheInterfaceAreRefused := by
  intro s width x v b
  refine ⟨by simp [access_readReg_eq_refused_iff], by simp [access_writeReg_eq_refused_iff],
    by simp [access_readMem_eq_refused_iff], by simp [access_writeMem_eq_refused_iff], fun h4 hlo hhi => ?_⟩
  obtain ⟨i, rfl⟩ : ∃ i : Fin 53, (Reg.reserved i).offset = x :=
    ⟨⟨(x - 0x02C) / 4, by omega⟩, by simp only [Reg.offset]; omega⟩
  exact access_reserved s i v

/-! ### Buffer bytes on an idle block (R57, R58) -/

section Idle

variable {s : State} (hb : s.status.busy = false) {a : Nat} (ha : a < s.params.memSize)
include hb ha

theorem access_writeMem_of_idle (b : Byte) : s.access (.writeMem 8 a b) = .next (s.setMem (s.mem.write a b)) := by
  rw [State.access, if_neg (not_not.2 ⟨rfl, ha⟩), hb, if_neg Bool.false_ne_true]

theorem access_readMem_of_idle : s.access (.readMem 8 a) = .next (s.saw (.byte a (s.mem.read a))) := by
  rw [State.access, if_pos ⟨rfl, ha⟩, State.hostReadByte, hb, if_neg Bool.false_ne_true]

end Idle

/-- Settles O49, by what `Memory.read` answers after `Memory.write`. -/
theorem hostByteWritesReadBack : Obligations.HostByteWritesReadBack := by
  intro s a b hb ha
  have hself : (s.mem.write a b).read a = b := (Memory.read_write s.mem a a b).trans (if_pos rfl)
  refine ⟨_, access_writeMem_of_idle hb ha b, rfl, hself,
    fun x hx => (Memory.read_write s.mem a x b).trans (if_neg hx), ?_⟩
  rw [access_readMem_of_idle (s := s.setMem (s.mem.write a b)) hb ha, State.setMem_mem, hself]

/-! ### Commands on one region (R54) -/

/-- Settles O14: KS_IV checks its own region, the other six are `onBlock` of a function. -/
theorem rangeErrorOfOneRegionCommandsWritesOnlyStatus : Obligations.RangeErrorOfOneRegionCommandsWritesOnlyStatus := by
  refine fun s => ⟨fun hfit => ?_, fun hfit i hi => ?_⟩
  · rw [exec_ksIv, execKsIv_eq, if_neg (Nat.not_le.2 hfit)]
  · obtain ⟨f, hf, -⟩ := exec_eq_onBlock s hi
    exact hf.trans (onBlock_of_not_fits f s hfit)

end Sys2Proof.Machine

/-!
The command word (R70, R71, R73): which words decode, to what, and why the others do not.
-/
namespace Sys2Proof

/-! ### The fields (R70) -/

theorem rsvField_toNat (w : Word) : (rsvField w).toNat = w.toNat / 256 := by
  have hw := w.isLt
  rw [rsvField, BitVec.extractLsb'_toNat, Nat.shiftRight_eq_div_pow, Nat.mod_eq_of_lt (by omega)]

/-- The reserved field is zero in the words below 256 (R70). -/
theorem rsvField_eq_zero_iff (w : Word) : rsvField w = 0 ↔ w.toNat < 256 := by
  rw [← BitVec.toNat_inj, rsvField_toNat]
  exact Nat.div_eq_zero_iff_lt (by decide)

theorem opcField_eq_setWidth (w : Word) : opcField w = w.setWidth 8 := by
  apply BitVec.eq_of_toNat_eq
  simp [opcField]

/-- A word is its reserved field above its opcode (R70). -/
theorem rsvField_append_opcField (w : Word) : rsvField w ++ opcField w = w := by
  apply BitVec.eq_of_toNat_eq
  rw [Machine.toNat_append_eq_add, rsvField_toNat, opcField_eq_setWidth, BitVec.toNat_setWidth]
  exact Nat.div_add_mod' w.toNat 256

/-! ### The decoder (R71, R73) -/

theorem decode_of_rsvField_ne_zero {w : Word} (h : rsvField w ≠ 0) :
    decode w = .error (.reservedBits (rsvField w)) := by
  rw [decode, if_neg h]

theorem decode_of_lookup_eq_some {w : Word} {i : Instr} (h : rsvField w = 0)
    (hl : opcodeMap.lookup (opcField w) = some i) : decode w = .ok i := by
  rw [decode, if_pos h, hl]

theorem decode_of_lookup_eq_none {w : Word} (h : rsvField w = 0) (hl : opcodeMap.lookup (opcField w) = none) :
    decode w = .error (.unassignedOpcode (opcField w)) := by
  rw [decode, if_pos h, hl]

/-- The map gives a command for no opcode but its own (R71). -/
theorem eq_opcodeOf_of_lookup {b : Byte} {i : Instr} (h : opcodeMap.lookup b = some i) : b = opcodeOf i := by
  have rows : ∀ e ∈ opcodeMap, e.1 = opcodeOf e.2 := by decide
  obtain ⟨before, after, hmap, -⟩ := List.lookup_eq_some_iff.1 h
  exact rows (b, i) (by simp [hmap])

/-- The words that select a command are the encodings of commands (R70, R71). -/
theorem decode_eq_ok_iff {w : Word} {i : Instr} : decode w = .ok i ↔ w = encode i := by
  refine ⟨fun h => ?_, fun h => h ▸ Machine.decode_encode i⟩
  by_cases hr : rsvField w = 0
  · cases hl : opcodeMap.lookup (opcField w) with
    | none => cases (decode_of_lookup_eq_none hr hl).symm.trans h
    | some j =>
      cases (decode_of_lookup_eq_some hr hl).symm.trans h
      rw [← rsvField_append_opcField w, hr, eq_opcodeOf_of_lookup hl, encode]
  · cases (decode_of_rsvField_ne_zero hr).symm.trans h

/-- The numbers of the command words, row by row of the map (R71). -/
theorem mem_commandNumbers_iff {n : Nat} :
    n ∈ [1, 2, 3, 4, 5, 6, 7, 8, 9, 10, 16, 17] ↔ ∃ i, (encode i).toNat = n := by
  have rows : [1, 2, 3, 4, 5, 6, 7, 8, 9, 10, 16, 17] = opcodeMap.map fun e => (encode e.2).toNat := by decide
  constructor
  · rw [rows, List.mem_map]
    rintro ⟨e, -, he⟩
    exact ⟨e.2, he⟩
  · rintro ⟨i, rfl⟩
    cases i <;> decide

/-- Settles O2: by `decode_eq_ok_iff`, and the numbers of the encodings. -/
theorem encodeAndDecodeAgreeOnEveryWord : Obligations.EncodeAndDecodeAgreeOnEveryWord := by
  refine ⟨fun i _ => Machine.decode_encode i, fun w i => decode_eq_ok_iff.1, fun w => ?_⟩
  rw [mem_commandNumbers_iff]
  exact exists_congr fun i => decode_eq_ok_iff.trans (eq_comm.trans BitVec.toNat_inj.symm)

/-- A word that is no command's number decodes to none (R73). -/
theorem decode_ne_ok_of_not_mem {w : Word} (h : w.toNat ∉ [1, 2, 3, 4, 5, 6, 7, 8, 9, 10, 16, 17]) (i : Instr) :
    decode w ≠ .ok i := fun hi =>
  h ((encodeAndDecodeAgreeOnEveryWord.2.2 w).1 ⟨i, hi⟩)

/-- Settles O3: the reserved field is nonzero from 256 on; below, the map has no row for the opcode. -/
theorem everyOtherWordIsRejectedByName : Obligations.EveryOtherWordIsRejectedByName := by
  refine fun w => ⟨fun hw => ?_, fun hw hn => ?_⟩
  · exact decode_of_rsvField_ne_zero fun hr => absurd ((rsvField_eq_zero_iff w).1 hr) (by omega)
  · have hr := (rsvField_eq_zero_iff w).2 hw
    cases hl : opcodeMap.lookup (opcField w) with
    | none => rw [decode_of_lookup_eq_none hr hl, opcField_eq_setWidth]
    | some i => exact absurd (decode_of_lookup_eq_some hr hl) (decode_ne_ok_of_not_mem hn i)

/-- Settles O1: each word is the encoding of its command. -/
theorem commandWordsDecodeAsTheOpcodeMapSays : Obligations.CommandWordsDecodeAsTheOpcodeMapSays := by
  simp only [Obligations.CommandWordsDecodeAsTheOpcodeMapSays, decode_eq_ok_iff]
  decide

end Sys2Proof

/-!
The steps of a busy and of an idle block (R75, R190, R191): whose turn it is, and how a command is issued, performed and
waited for.
-/
namespace Sys2Proof.Machine

/-! ### Whose turn it is (R75, R191) -/

theorem State.turn_ne_core_of_idle {s : State} (hb : s.status.busy = false) : s.turn ≠ .core := by
  rcases hs : s.script with _ | ⟨a, rest⟩ <;> simp [State.turn, hs, hb]

/-- The host of an idle block makes its next access, and no choice is drawn (R191, R196). -/
theorem step_of_idle {s : State} {a : Access} {rest : List Access} (hb : s.status.busy = false)
    (hs : s.script = a :: rest) : step s = (s.setScript rest).access a := by
  have hturn : s.turn = .host a rest := by simp [State.turn, hs, hb]
  have hcont : s.contended = false := by cases a <;> simp [State.contended, hs, hb]
  rw [step, State.advance, hturn, State.scheduled, hcont]
  rfl

/-- While BUSY = 1 a free choice decides between the completion step and an access that is no wait (R191, R211). -/
theorem step_of_contended {s : State} {a : Access} {rest : List Access} (hb : s.status.busy = true)
    (hs : s.script = a :: rest) (ha : a ≠ .wait) :
    step s = if Config.coreMovesFirst s.params.regBase s.draws then s.drawn.completionStep
      else (s.drawn.setScript rest).access a := by
  have hsched : s.scheduled = s.drawn := by
    have hcont : s.contended = true := by
      cases a with
      | wait => exact absurd rfl ha
      | _ => simp [State.contended, hs, hb]
    rw [State.scheduled, hcont, if_pos rfl]
  rw [step, State.advance, hsched]
  cases hc : Config.coreMovesFirst s.params.regBase s.draws <;> simp [State.turn, hs, hb, ha, hc]

/-- Settles O6. -/
theorem completionStepIsEnabledExactlyWhileBusy : Obligations.CompletionStepIsEnabledExactlyWhileBusy :=
  fun _ => ⟨State.turn_ne_core_of_idle, step_of_busy_of_waiting, fun hb _ _ => step_of_contended hb⟩

/-- Settles O4: PEND decodes to no command, so the completion is that of an illegal word. -/
theorem illegalWordCompletionWritesOnlyStatus : Obligations.IllegalWordCompletionWritesOnlyStatus := by
  refine fun s hn => ⟨?_, step_of_busy_of_waiting⟩
  rcases completionStep_cases s with ⟨i, hi, -⟩ | ⟨e, -, h⟩
  · exact absurd hi (decode_ne_ok_of_not_mem hn i)
  · exact h

/-! ### A command's end (R191, R192) -/

/-- The completion step always answers a next state, with BUSY = 0 and DONE = 1 (R192). -/
theorem completionStep_ends (s : State) :
    ∃ t, s.completionStep = .next t ∧ t.status.busy = false ∧ t.status.done = true := by
  obtain ⟨u, c, h, -⟩ := completionStep_completes s
  exact ⟨_, h, rfl, rfl⟩

/-- A read of STATUS leaves the flags and the host's remaining accesses as they are (R25, R215). -/
theorem access_readReg_status (s : State) :
    ∃ t, s.access (.readReg 32 0x004) = .next t ∧ t.status = s.status ∧ t.script = s.script := by
  have hat : Reg.at 32 0x004 = some .status := Reg.at_offset .status
  refine ⟨s.hostReadReg .status, by simp [State.access, hat], State.hostReadReg_status s _, ?_⟩
  simp [State.hostReadReg, Reg.openWhileBusy, State.saw]

/-- Settles O8, by induction on the reads still to make: the free choice ends the command, or the host makes a read. -/
theorem commandEndsInBoundedStepsUnderPolling : Obligations.CommandEndsInBoundedStepsUnderPolling := by
  intro n
  have ends : ∀ {s u : State}, step s = u.completionStep →
      ∃ t : State, core.run 1 s = .next t ∧ t.status.busy = false ∧ t.status.done = true := fun {s u} h => by
    obtain ⟨t, ht, hbusy, hdone⟩ := completionStep_ends u
    exact ⟨t, (core_run_next 0 s t (h.trans ht)).trans (core_run_zero t), hbusy, hdone⟩
  induction n with
  | zero =>
    intro s hb hs
    exact ⟨1, by omega, ends (step_of_busy_of_waiting hb (.inl hs))⟩
  | succ n ih =>
    intro s hb hs
    have hstep := step_of_contended hb (hs.trans List.replicate_succ) (by simp)
    split at hstep
    · exact ⟨1, by omega, ends hstep⟩
    · obtain ⟨u, hu, hstatus, hscript⟩ :=
        access_readReg_status (s.drawn.setScript (List.replicate n (.readReg 32 0x004)))
      obtain ⟨k, hk, t, ht, hend⟩ := ih u ((congrArg Status.busy hstatus).trans hb) hscript
      exact ⟨k + 1, by omega, t, (core_run_next k s u (hstep.trans hu)).trans ht, hend⟩

/-! ### RUN (R75, R190) -/

/-- No command writes the operand registers, the latch or what belongs to the host (R39). -/
theorem exec_keepsOperands (i : Instr) (s : State) : ∃ t, exec i s = .next t ∧ s.KeepsOperands t := by
  obtain ⟨⟨a, ha, hka, -⟩, ⟨b, hb, hkb, -⟩, ⟨c, hc, hkc, -⟩, d, hd, hkd, -⟩ := registerCommandsFrame s
  have block : i ∈ [Instr.shuf2, .unshuf1, .unshuf2, .encBlk, .decBlk1, .decBlk2] →
      ∃ t, exec i s = .next t ∧ s.KeepsOperands t := fun hi => by
    obtain ⟨t, ht, hops, -⟩ := blockCommandsFrame s i hi
    exact ⟨t, ht, hops⟩
  cases i with
  | lcgNext => exact ⟨a, ha, hka⟩
  | ksSeed => exact ⟨b, hb, hkb⟩
  | ksIv => exact ⟨c, hc, hkc⟩
  | mark => exact ⟨d, hd, hkd⟩
  | encode =>
    obtain ⟨t, ht, hops, -⟩ := encodeFrame s
    exact ⟨t, ht, hops⟩
  | decode =>
    obtain ⟨t, ht, hops, -⟩ := decodeFrame s
    exact ⟨t, ht, hops⟩
  | _ => exact block (by decide)

/-- A command issued while the host waits is performed next (R190, R191). -/
theorem step_issue_of_waiting {s : State} (hs : s.script.head? = some .wait) (i : Instr) :
    step (s.issue (encode i)) = exec i (s.issue (encode i)) := by
  rw [step_of_busy_of_waiting (by simp) (.inr (by simpa using hs)),
    State.completionStep_of_decode (by rw [State.issue_pend, decode_encode])]

/-- Settles O9: the write to CMD issues, the wait lets the core move, and the wait of an idle block passes. -/
theorem runStatementPerformsTheCommand : Obligations.RunStatementPerformsTheCommand := by
  intro s i rest hb hs
  have hissue : step s = .next ((s.setScript (.wait :: rest)).issue (encode i)) := by
    rw [step_of_idle hb hs]
    exact access_writeReg_of_idle (s := s.setScript (.wait :: rest)) hb .cmd (encode i)
  have hperform := step_issue_of_waiting (s := s.setScript (.wait :: rest)) rfl i
  obtain ⟨t, ht, hops⟩ := exec_keepsOperands i ((s.setScript (.wait :: rest)).issue (encode i))
  have hidle : t.status.busy = false := (ht ▸ exec_completes i _ : State.Completes _ (.next t)).next_status.1
  have hwait : step t = .next (t.setScript rest) := step_of_idle hidle hops.script
  refine ⟨t, ht, ?_⟩
  rw [core_run_next 2 s _ hissue, core_run_next 1 _ t (hperform.trans ht), core_run_next 0 t _ hwait, core_run_zero]

end Sys2Proof.Machine

/-!
DECODE's block loop and its end (R157 to R162): what the decoded payload, KS and DST_LEN are, byte by byte.
-/
namespace Sys2Proof.Machine

/-! ### The block loop (R136, R160) -/

/-- The keystream that a decoding chain hands to block `k`: what the blocks before it leave. -/
def decKeystream (p : Params) (T : Table) (Ss : List Block) (K : Block) (k : Nat) : Block :=
  (decChain p T (Ss.take k) K).2

/-- A state that holds at `d` the chained decoding of a payload, with the last keystream in KS, is as R160 says. -/
theorem decodesPayload_of_decChain {s t : State} {T : Table} {a m d : Nat} {payload : List Byte} {K : Block}
    (hpay : ∀ i < 256 * (m / 256), payload.getD i 0 = s.mem.read (a + i))
    (hmem : ∀ i < 256 * (m / 256), t.mem.read (d + i) =
      (bytesOf (decChain s.params T (blocksOf (m / 256) payload) K).1).getD i 0)
    (hks : t.ks = (decChain s.params T (blocksOf (m / 256) payload) K).2) :
    DecodesPayload s t T a m d (decKeystream s.params T (blocksOf (m / 256) payload) K) := by
  have stored : ∀ k i (hk : k < (blocksOf (m / 256) payload).length) (hi : i < 256),
      (blocksOf (m / 256) payload)[k][i] = s.mem.read (a + 256 * k + i) := fun k i hk hi => by
    rw [blocksOf_getElem_byte _ _ _ _ hk hi, hpay _ (by rw [blocksOf_length] at hk; omega), Nat.add_assoc]
  have next : ∀ k (hk : k < (blocksOf (m / 256) payload).length),
      decKeystream s.params T (blocksOf (m / 256) payload) K (k + 1) =
        tap s.params (perm T (blocksOf (m / 256) payload)[k]) (blocksOf (m / 256) payload)[k] := fun k hk => by
    rw [decKeystream, decChain_take_succ _ _ _ _ _ hk, decStep_next]
  refine ⟨fun k j w hk hj hw => ?_, fun k j w hk hj hw => ?_, ?_⟩
  · have hT := T[j].isLt
    rw [Nat.add_assoc, hmem _ (by omega), bytesOf_getD _ _ _ (by simpa using hk) (by omega), decChain_getElem,
      decStep_recovered _ _ _ _ _ _ hj hw, stored _ _ _ (by omega)]
    rfl
  · have hT := T[j].isLt
    have hk' : k < (blocksOf (m / 256) payload).length := by simpa using hk
    rw [next k hk']
    cases htap : s.params.chainTap with
    | prePerm => rw [tap_prePerm htap, perm_getElem_word _ _ _ _ hj hw, stored _ _ _ (by omega)]
    | postPerm => rw [tap_postPerm htap, stored _ _ _ (by omega)]
  · rw [hks, decKeystream, List.take_of_length_le (by simp)]

/-! ### The pad test and the end of DECODE (R159, R161) -/

/-- The pad count in memory is that of the stored byte (R159, R11). -/
theorem padCountAt_eq_storedPad (t : State) (d m : Nat) :
    padCountAt t d m = storedPad t.params.pad0Mode (t.mem.read (d + m - 1)) := by
  cases h : t.params.pad0Mode <;> simp [padCountAt, storedPad, h]

theorem padCountAt_complete (t : State) (c : Code) (d m : Nat) : padCountAt (t.complete c) d m = padCountAt t d m := rfl

theorem padCountAt_setDstLen (t : State) (n : Word) (d m : Nat) : padCountAt (t.setDstLen n) d m = padCountAt t d m :=
  rfl

/-- What the block loop makes of a payload by version `v`'s table: the decoded blocks and the last keystream (R160). -/
def decodedBlocks (p : Params) (v : Version) (payload : List Byte) (K : Block) : List Block × Block :=
  decChain p (inverseTable p v) (blocksOf (payload.length / 256) payload) K

/-- The result of a payload, by the pad count that its last decoded byte stands for (R159, R160). -/
theorem decodePayload_eq (p : Params) (v : Version) (payload : List Byte) (w : Option Word) (K : Block) :
    decodePayload p v payload w K =
      if storedPad p.pad0Mode ((bytesOf (decodedBlocks p v payload K).1).getD (payload.length - 1) 0) = 0 ∨
          payload.length <
            storedPad p.pad0Mode ((bytesOf (decodedBlocks p v payload K).1).getD (payload.length - 1) 0) then
        .corruptPadding v (bytesOf (decodedBlocks p v payload K).1) w (decodedBlocks p v payload K).2
      else
        .ok v (bytesOf (decodedBlocks p v payload K).1) (payload.length -
          storedPad p.pad0Mode ((bytesOf (decodedBlocks p v payload K).1).getD (payload.length - 1) 0)) w
          (decodedBlocks p v payload K).2 := rfl

/-- The state in which DECODE has written what the block loop made of a payload, before its completion (R161). -/
def decodeWritten (s : State) (v : Version) (d : Nat) (payload : List Byte) (w : Option Word) (K : Block) : State :=
  (((decodeStart s (some v)).writeBytes d (bytesOf (decodedBlocks s.params v payload K).1)).setKs
    (decodedBlocks s.params v payload K).2).setWorkingSeed w

section Payload

variable {s : State} {v : Version} {a d : Nat} {payload : List Byte} (w : Option Word) (K : Block)
  (hblocks : payload.length = 256 * (payload.length / 256))

include hblocks

/-- A byte of the destination is that of the decoded payload (R160). -/
theorem decodeWritten_read {i : Nat} (hi : i < payload.length) :
    (decodeWritten s v d payload w K).mem.read (d + i) =
      (bytesOf (decodedBlocks s.params v payload K).1).getD i 0 := by
  have hlen : (bytesOf (decodedBlocks s.params v payload K).1).length = payload.length :=
    decodedPayload_length s.params v payload K hblocks
  rw [decodeWritten, State.setWorkingSeed_mem, State.setKs_mem, State.writeBytes_mem, Memory.read_writeBytes, hlen,
    if_pos (by omega), Nat.add_sub_cancel_left]

/-- The destination and KS hold the chained decoding of the payload at `a` (R160). -/
theorem decodeWritten_decodesPayload (hpay : ∀ i < payload.length, payload.getD i 0 = s.mem.read (a + i)) :
    DecodesPayload s (decodeWritten s v d payload w K) (inverseTable s.params v) a payload.length d
      (decKeystream s.params (inverseTable s.params v) (blocksOf (payload.length / 256) payload) K) :=
  decodesPayload_of_decChain (fun i hi => hpay i (by omega)) (fun i hi => decodeWritten_read w K hblocks (by omega))
    (by simp [decodeWritten, decodedBlocks])

/-- The pad count in the destination is that of the last decoded byte (R159). -/
theorem padCountAt_decodeWritten (hpos : 0 < payload.length) :
    padCountAt (decodeWritten s v d payload w K) d payload.length =
      storedPad s.params.pad0Mode
        ((bytesOf (decodedBlocks s.params v payload K).1).getD (payload.length - 1) 0) := by
  rw [padCountAt_eq_storedPad, Nat.add_sub_assoc hpos, decodeWritten_read w K hblocks (by omega)]
  simp [decodeWritten]

/-- The end of DECODE for a payload at `a`: its chained decoding, the working seed in SEED, and the pad test's outcome. -/
theorem finishDecode_decodePayload (hpos : 0 < payload.length) (hlen : payload.length ≤ 2 ^ 32)
    (hpay : ∀ i < payload.length, payload.getD i 0 = s.mem.read (a + i)) :
    ∃ t, finishDecode (decodeStart s (some v)) d (decodePayload s.params v payload w K) = .next t ∧
      DecodesPayload s t (inverseTable s.params v) a payload.length d
        (decKeystream s.params (inverseTable s.params v) (blocksOf (payload.length / 256) payload) K) ∧
      t.seed = w.getD s.seed ∧ PadOutcome s t v d payload.length := by
  have hdec := decodeWritten_decodesPayload (v := v) (d := d) w K hblocks hpay
  have hpad := padCountAt_decodeWritten (s := s) (v := v) (d := d) w K hblocks hpos
  have hseed : (decodeWritten s v d payload w K).seed = w.getD s.seed := by simp [decodeWritten]
  rw [decodePayload_eq, ← hpad]
  by_cases hcorrupt : padCountAt (decodeWritten s v d payload w K) d payload.length = 0 ∨
      payload.length < padCountAt (decodeWritten s v d payload w K) d payload.length
  · rw [if_pos hcorrupt]
    refine ⟨(decodeWritten s v d payload w K).complete .corruptPadding, rfl, { hdec with }, hseed, ?_⟩
    rw [PadOutcome, padCountAt_complete, if_pos hcorrupt]
    exact ⟨by simp [State.CompletedWith, decodeWritten], by simp [decodeWritten]⟩
  · rw [if_neg hcorrupt]
    refine ⟨((decodeWritten s v d payload w K).setDstLen _).complete .ok, rfl, { hdec with }, hseed, ?_⟩
    rw [PadOutcome, padCountAt_complete, padCountAt_setDstLen, if_neg hcorrupt]
    refine ⟨by simp [State.CompletedWith, decodeWritten], ?_⟩
    exact (BitVec.toNat_ofNat _ _).trans (Nat.mod_eq_of_lt (by omega))

end Payload

/-! ### The buffers of v1 and v2 (R77, R78, R157) -/

@[simp] theorem decKeystream_zero (p : Params) (T : Table) (Ss : List Block) (K : Block) :
    decKeystream p T Ss K 0 = K := rfl

/-- `v` is version 1 or 2, and `n` is what its buffers hold besides the payload: the IV, and in v2 one byte more, which is
also their length modulo 256 (R77, R78, R156). -/
def IsLegacy (v : Version) (n : Nat) : Prop := v = .v1 ∧ n = 32 ∨ v = .v2 ∧ n = 33

section Legacy

variable {v : Version} {n : Nat} (h : IsLegacy v n)
include h

theorem versionOf_legacy {len : Nat} (hmod : len % 256 = n) : versionOf len = some v := by
  rcases h with ⟨rfl, rfl⟩ | ⟨rfl, rfl⟩ <;> simp [versionOf, hmod]

theorem payloadLen_legacy (len : Nat) : payloadLen v len = len - n := by
  rcases h with ⟨rfl, rfl⟩ | ⟨rfl, rfl⟩ <;> rfl

/-- The payload of a v1 or v2 buffer follows the IV, and is decoded from the IV's keystream (R157, R160). -/
theorem decodeBuffer_legacy (p : Params) {B : List Byte} (hl : 261 ≤ B.length) (hmod : B.length % 256 = n) :
    decodeBuffer p B = decodePayload p v (slice B 32 (32 + (B.length - n))) none (fromIv (fill 32 B)) := by
  rcases decodeBuffer_cases p B hl (versionOf_legacy h hmod) with ⟨rfl, e⟩ | ⟨rfl, e⟩ | ⟨rfl, -⟩
  · obtain rfl : n = 32 := by simpa [IsLegacy] using h
    rw [e, show 32 + (B.length - 32) = B.length by omega]
  · obtain rfl : n = 33 := by simpa [IsLegacy] using h
    rw [e, show 32 + (B.length - 33) = B.length - 1 by omega]
  · simp [IsLegacy] at h

end Legacy

/-- The keystream of the IV at `a` (R101). -/
theorem isIvKeystream_fromIv (s : State) (a : Nat) {B : List Byte}
    (hB : ∀ i < 32, B.getD i 0 = s.mem.read (a + i)) : IsIvKeystream s a (fromIv (fill 32 B)) := by
  intro row col hr hc
  have hcol : (32 * row + col) % 32 = col := by omega
  have hrow : (32 * row + col) / 32 = row := by omega
  simp only [fromIv_getElem, fill_getElem, hcol, hrow, hB col hc]
  rw [BitVec.rotateLeft, BitVec.rotateLeftAux, Nat.mod_eq_of_lt hr]
  rfl

/-- DECODE of a v1 or v2 source whose regions fit and do not overlap (R157, R160, R161). -/
theorem execDecode_legacy (s : State) {v : Version} {n : Nat} (h : IsLegacy v n) (hl : 261 ≤ s.srcLen.toNat)
    (hmod : s.srcLen.toNat % 256 = n) (hsrc : (sourceOperand s).Valid s.params)
    (hdst : (decodeTarget s v).Valid s.params) (hover : ¬ (sourceOperand s).Overlaps (decodeTarget s v)) :
    ∃ t K, exec .decode s = .next t ∧ IsIvKeystream s s.srcAddr.toNat (K 0) ∧
      DecodesPayload s t (inverseTable s.params v) (s.srcAddr.toNat + 32) (s.srcLen.toNat - n) s.dstAddr.toNat K ∧
      t.seed = s.seed ∧ PadOutcome s t v s.dstAddr.toNat (s.srcLen.toNat - n) := by
  have hn : 32 ≤ n ∧ n ≤ 33 := by rcases h with ⟨-, rfl⟩ | ⟨-, rfl⟩ <;> decide
  have hread : ∀ i < s.srcLen.toNat, (s.mem.readBytes s.srcAddr.toNat s.srcLen.toNat).getD i 0 =
      s.mem.read (s.srcAddr.toNat + i) := fun i => s.mem.readBytes_getD _ _ i
  have hlen : (slice (s.mem.readBytes s.srcAddr.toNat s.srcLen.toNat) 32 (32 + (s.srcLen.toNat - n))).length =
      s.srcLen.toNat - n := by
    rw [slice_length, Memory.readBytes_length]
    omega
  have hdec := decodeBuffer_legacy h s.params (B := s.mem.readBytes s.srcAddr.toNat s.srcLen.toNat)
    (by simpa using hl) (by simpa using hmod)
  rw [Memory.readBytes_length] at hdec
  obtain ⟨t, ht, hpayload, hseed, hpad⟩ := finishDecode_decodePayload (s := s) (v := v) (a := s.srcAddr.toNat + 32)
    (d := s.dstAddr.toNat) none (fromIv (fill 32 (s.mem.readBytes s.srcAddr.toNat s.srcLen.toNat)))
    (by rw [hlen]; omega) (by rw [hlen]; omega) (by rw [hlen]; omega)
    (fun i hi => by
      rw [hlen] at hi
      rw [slice_getD _ _ _ _ (by omega), hread _ (by omega), Nat.add_assoc])
  rw [hlen] at hpayload hpad
  refine ⟨t, _, ?_, ?_, hpayload, hseed, hpad⟩
  · rw [exec_decode, execDecode_of_fits s hsrc hl (versionOf_legacy h hmod) hdst hover, hdec, ht]
  · rw [decKeystream_zero]
    exact isIvKeystream_fromIv s s.srcAddr.toNat fun i hi => hread i (by omega)

/-- Settles O29: both rows are `IsLegacy`, and the regions of the statement are those that `execDecode_legacy` asks for. -/
theorem decodeOfLegacyBuffers : Obligations.DecodeOfLegacyBuffers := by
  intro s c hc _ hl hmod hsrc hdst hdisjoint
  obtain ⟨v, n, T⟩ := c
  obtain ⟨h, rfl⟩ : IsLegacy v n ∧ inverseTable s.params v = T := by
    simp only [List.mem_cons, List.not_mem_nil, or_false, Prod.mk.injEq] at hc
    rcases hc with ⟨rfl, rfl, rfl⟩ | ⟨rfl, rfl, rfl⟩
    · exact ⟨.inl ⟨rfl, rfl⟩, rfl⟩
    · exact ⟨.inr ⟨rfl, rfl⟩, rfl⟩
  refine execDecode_legacy s h hl hmod (.inr hsrc) (.inr ?_) ?_
  · simpa only [decodeTarget, payloadLen_legacy h] using hdst
  · simp only [Region.Overlaps, sourceOperand, decodeTarget, payloadLen_legacy h] at hdisjoint ⊢
    omega

/-- Neither the IV nor the payload of a v2 buffer reaches its last byte (R78). -/
theorem decodeBuffer_v2_append (p : Params) {l : List Byte} (b : Byte) (hl : 260 ≤ l.length)
    (hmod : l.length % 256 = 32) :
    decodeBuffer p (l ++ [b]) = decodePayload p .v2 (slice l 32 l.length) none (fromIv (fill 32 l)) := by
  have hlen : (l ++ [b]).length = l.length + 1 := by simp
  have hiv : fill 32 (l ++ [b]) = fill 32 l := by
    apply Vector.ext
    intro i hi
    rw [fill_getElem, fill_getElem, List.getD_append _ _ _ _ (by omega)]
  have hpayload : slice (l ++ [b]) 32 l.length = slice l 32 l.length := by
    rw [slice, slice, List.drop_append_of_le_length (by omega), List.take_append_of_le_length (by simp)]
  rw [decodeBuffer_legacy (.inr ⟨rfl, rfl⟩) p (by omega) (by omega), hiv,
    show 32 + ((l ++ [b]).length - 33) = l.length by omega, hpayload]

/-- Settles O33: by `decodeBuffer_v2_append`, for the buffer with its own last byte and with the other. -/
theorem theV2TrailingByteIsIgnored : Obligations.TheV2TrailingByteIsIgnored := by
  intro p B b hl hmod
  have hne : B ≠ [] := List.ne_nil_of_length_pos (by omega)
  have hlen : B.dropLast.length = B.length - 1 := List.length_dropLast
  rw [decodeBuffer_v2_append p b (by omega) (by omega),
    ← decodeBuffer_v2_append p (B.getLast hne) (by omega) (by omega), List.dropLast_concat_getLast hne]

end Sys2Proof.Machine

/-!
The Keystream Generator's commands (R90, R91): what LCG_NEXT leaves in SEED, DATA and STATUS.
-/
namespace Sys2Proof.Machine

/-- Settles O11: the end state is that of `execLcgNext_eq`, its SEED and DATA are the two values of one generator step. -/
theorem lcgNextAdvancesSeedAndOutputsItsByte : Obligations.LcgNextAdvancesSeedAndOutputsItsByte := by
  intro s
  exact ⟨_, execLcgNext_eq s, nextByte_seed_toNat s.seed, nextByte_byte_toNat s.seed, rfl⟩

end Sys2Proof.Machine

/-!
The Block Cipher Builder's commands (R100 to R103): the keystream that KS_SEED takes from the generator and the one that
KS_IV takes from the IV.
-/
namespace Sys2Proof.Machine

/-- The generator steps on words and those in integers run in parallel (R90). -/
theorem iterate_nextByte_toNat (s : Word) (n : Nat) : ((fun x => (nextByte x).2)^[n] s).toNat = seedAfter s n := by
  have hstep : Function.Semiconj BitVec.toNat (fun x : Word => (nextByte x).2)
      (fun x => (x * 0x41C64E6D + 0x3039) % 2 ^ 32) := nextByte_seed_toNat
  exact hstep.iterate_right n s

/-- The seed that a seed's keystream leaves (R100). -/
theorem fromSeed_seed_toNat (s : Word) : (fromSeed s).2.toNat = seedAfter s 256 := by
  rw [fromSeed_snd, generate_seed, iterate_nextByte_toNat]

/-- The keystream of a seed (R100). -/
theorem isSeedKeystream_fromSeed (s : Word) : IsSeedKeystream s (fromSeed s).1 := by
  intro i hi
  rw [fromSeed_getElem s i hi, nextByte_byte_toNat, generatorByte, ← iterate_nextByte_toNat,
    Function.iterate_succ_apply']

/-- Settles O12: KS and SEED of the end state `execKsSeed_eq` gives are the two values of `fromSeed`. -/
theorem ksSeedFillsKsFromTheGenerator : Obligations.KsSeedFillsKsFromTheGenerator := by
  intro s
  refine ⟨_, execKsSeed_eq s, isSeedKeystream_fromSeed s.seed, ?_, rfl⟩
  rw [State.complete_seed, State.setSeed_seed, fromSeed_seed_toNat]

/-- Settles O13: on a region inside memory KS of the end state is `fromIv` of the 32 bytes read there. -/
theorem ksIvFillsKsFromTheIv : Obligations.KsIvFillsKsFromTheIv := by
  intro s hfit
  have hend := execKsIv_eq s
  rw [if_pos hfit] at hend
  exact ⟨_, hend, isIvKeystream_fromIv s _ fun i hi => s.mem.readBytes_getD _ _ i hi, rfl⟩

end Sys2Proof.Machine

/-!
The Integrity Marker's command (R110 to R112): the marker by masks, in its closed form, and what MARK leaves in DATA.
-/
namespace Sys2Proof.Machine

/-! ### The masks of the marker (R112) -/

/-- The bits in the mask drop out, for a bit and its complement share no 1. -/
theorem xor_and_self_eq_and_not {w : Nat} (x m : BitVec w) : (x ^^^ m) &&& x = x &&& ~~~m := by
  ext i hi
  simp only [BitVec.getElem_and, BitVec.getElem_xor, BitVec.getElem_not]
  cases x[i] <;> simp

/-- To invert the bits in a mask and keep those in the complementary mask is one XOR. -/
theorem not_and_or_and_not_eq_xor {w : Nat} (x m : BitVec w) : (~~~x &&& m) ||| (x &&& ~~~m) = x ^^^ m := by
  ext i hi
  simp only [BitVec.getElem_and, BitVec.getElem_or, BitVec.getElem_xor, BitVec.getElem_not]
  cases x[i] <;> simp

theorem xor_or_and_eq_or {w : Nat} (x m : BitVec w) : (x ^^^ m) ||| (x &&& m) = x ||| m := by
  ext i hi
  simp only [BitVec.getElem_and, BitVec.getElem_or, BitVec.getElem_xor]
  cases x[i] <;> simp

/-- The closed form, by R112's own argument: 0x67 and 0x98 are complementary masks, and 0x67 XOR 0x6F is 0x08. -/
theorem marker_eq_closedMarker (b : Byte) : marker b = closedMarker b := by
  have ht : (b ^^^ markFlip) &&& b = b &&& 0xF3 := xor_and_self_eq_and_not b markFlip
  have hu : ∀ t : Byte, (~~~t &&& markInverted) ||| (t &&& markKept) = t ^^^ markInverted :=
    fun t => not_and_or_and_not_eq_xor t markInverted
  have hmix : markInverted ^^^ markMix = markAdded := by decide
  rw [marker, ht, hu, BitVec.xor_assoc, hmix, xor_or_and_eq_or]
  rfl

/-- R110's parenthesised expression, its complement written as an XOR with 0xFF. -/
theorem marker_eq_expression (b x : Byte) (hx : x = (b ^^^ 0x0C) &&& b) :
    marker b = (((x ^^^ 0xFF) &&& 0x67 ||| x &&& 0x98) ^^^ 0x6F) ||| x &&& 0x08 := by
  have hnot : x ^^^ 0xFF = ~~~x := BitVec.xor_allOnes
  rw [hnot, hx]
  rfl

/-- Settles O15: DATA of the end state `execMark_eq` gives is the marker, in R110's expression and in its closed form. -/
theorem markReplacesDataByItsMarker : Obligations.MarkReplacesDataByItsMarker := by
  intro s
  exact ⟨_, execMark_eq s, marker_eq_expression s.data, marker_eq_closedMarker s.data, rfl⟩

end Sys2Proof.Machine

/-!
The Block Permutation engine's commands (R121, R123 to R125), by what a command on the block operand leaves at each byte of
that block.
-/
namespace Sys2Proof.Machine

/-! ### The commands on the block operand -/

/-- Where the operand fits, a command on it leaves its function's block in memory, byte by byte, and keystream in KS. -/
theorem onBlock_writes (f : Block → Block → Block × Block) {s : State}
    (hfit : s.dstAddr.toNat + 256 ≤ s.params.memSize) :
    ∃ t, onBlock f s = .next t ∧
      (∀ i (hi : i < 256), t.mem.read (s.dstAddr.toNat + i) = (f (s.readBlock s.dstAddr.toNat) s.ks).1[i]) ∧
      t.ks = (f (s.readBlock s.dstAddr.toNat) s.ks).2 ∧ State.CompletedWith s t .ok s.status.ver :=
  ⟨_, onBlock_of_fits f s hfit, fun i hi => s.writeBlock_read_inside _ i _ hi, rfl, rfl⟩

/-! ### The permutations -/

/-- A permutation command puts in each word of its operand the word that its table names. -/
theorem permuteOperand_moves_words (T : Table) {s : State} (hfit : s.dstAddr.toNat + 256 ≤ s.params.memSize) :
    ∃ t, permuteOperand T s = .next t ∧
      (∀ j w (hj : j < 64) (_ : w < 4), t.mem.read (s.dstAddr.toNat + (4 * j + w)) =
        s.mem.read (s.dstAddr.toNat + (4 * T[j].val + w))) ∧
      State.CompletedWith s t .ok s.status.ver := by
  obtain ⟨t, hend, hmem, -, hstatus⟩ := onBlock_writes (fun X K => (perm T X, K)) hfit
  refine ⟨t, hend, fun j w hj hw => ?_, hstatus⟩
  rw [hmem _ (by omega), perm_getElem_word T _ j w hj hw, State.readBlock_getElem]

/-- Settles O16: the three commands are `permuteOperand` with their tables. -/
theorem permutationCommandsMoveWords : Obligations.PermutationCommandsMoveWords := by
  intro s hfit c hc
  simp only [List.mem_cons, List.not_mem_nil, or_false] at hc
  rcases hc with rfl | rfl | rfl <;> exact permuteOperand_moves_words _ hfit

end Sys2Proof.Machine

/-!
The block chaining commands (R135 to R141): what ENC_BLK and the DEC_BLK commands leave in the operand and in KS, that
DEC_BLK2 undoes ENC_BLK on the machine, and that the chaining value carries every change of a stored block.
-/
namespace Sys2Proof.Machine

/-! ### One block (R135 to R139) -/

/-- Settles O18: ENC_BLK leaves `enc_step` of the operand and KS, whose next keystream is split by CHAIN_TAP. -/
theorem encBlkEncodesOneBlock : Obligations.EncBlkEncodesOneBlock := by
  intro s hfit
  obtain ⟨t, hend, hmem, hks, hstatus⟩ := onBlock_writes (encStep s.params) hfit
  rw [encStep_next] at hks
  refine ⟨t, hend, fun j w hj hw => ?_, fun i hi => ?_, hstatus⟩
  · rw [hmem _ (by omega), encStep_stored _ _ _ j w hj hw, State.readBlock_getElem]
  · cases htap : s.params.chainTap with
    | prePerm => simp only [hks, tap_prePerm htap, Block.xor_getElem, State.readBlock_getElem]
    | postPerm => simp only [hks, tap_postPerm htap, hmem i hi]

/-- Settles O19: both commands leave `dec_step` of the operand and KS, with P_INV1 and with P_INV2 as the table. -/
theorem decBlkCommandsDecodeOneBlock : Obligations.DecBlkCommandsDecodeOneBlock := by
  intro s hfit c hc
  have hexec : exec c.1 s = onBlock (decStep s.params c.2) s := by
    simp only [List.mem_cons, List.not_mem_nil, or_false] at hc
    rcases hc with rfl | rfl
    · exact execDecBlk1_eq s
    · exact execDecBlk2_eq s
  obtain ⟨t, hend, hmem, hks, hstatus⟩ := onBlock_writes (decStep s.params c.2) hfit
  rw [decStep_next] at hks
  refine ⟨t, hexec.trans hend, fun j w hj hw => ?_, fun j w hj hw => ?_, hstatus⟩
  · rw [hmem _ (by omega), decStep_recovered _ _ _ _ j w hj hw, State.readBlock_getElem]
  · cases htap : s.params.chainTap with
    | prePerm => simp only [hks, tap_prePerm htap, perm_getElem_word _ _ j w hj hw, State.readBlock_getElem]
    | postPerm => simp only [hks, tap_postPerm htap, State.readBlock_getElem]

/-! ### DEC_BLK2 after ENC_BLK (R140) -/

/-- All that a command on an operand that fits does to memory, KS and STATUS, the operand taken as a block. -/
theorem onBlock_block_effect (f : Block → Block → Block × Block) {s : State}
    (hfit : s.dstAddr.toNat + 256 ≤ s.params.memSize) :
    ∃ t, onBlock f s = .next t ∧ s.KeepsOperands t ∧ s.KeepsMemoryOutside t (blockOperand s) ∧
      (t.readBlock s.dstAddr.toNat, t.ks) = f (s.readBlock s.dstAddr.toNat) s.ks ∧
      State.CompletedWith s t .ok s.status.ver := by
  obtain ⟨t, hend, hmem, hks, hstatus⟩ := onBlock_writes f hfit
  obtain ⟨t', hend', hops, -, -, -, -, -, hout⟩ := onBlock_frame f s
  obtain rfl : t = t' := Host.Outcome.next.inj (hend.symm.trans hend')
  have hblock : t.readBlock s.dstAddr.toNat = (f (s.readBlock s.dstAddr.toNat) s.ks).1 :=
    Vector.ext fun i hi => (t.readBlock_getElem _ i hi).trans (hmem i hi)
  exact ⟨t, hend, hops, hout, Prod.ext hblock hks, hstatus⟩

/-- Memory is kept when it is kept outside a block and the block reads as before. -/
theorem State.keepsMemory_of_readBlock_eq {s u : State} (hout : s.KeepsMemoryOutside u (blockOperand s))
    (hblock : u.readBlock s.dstAddr.toNat = s.readBlock s.dstAddr.toNat) : s.KeepsMemory u := by
  intro x
  by_cases hx : (blockOperand s).Covers x
  · obtain ⟨i, rfl⟩ : ∃ i, x = s.dstAddr.toNat + i := Nat.exists_eq_add_of_le hx.1
    have hi : i < 256 := Nat.lt_of_add_lt_add_left hx.2
    rw [← u.readBlock_getElem _ i hi, ← s.readBlock_getElem _ i hi, hblock]
  · exact hout x hx

/-- If `g` recovers from the block that `f` stores the operand and `f`'s keystream, then the command of `g`, with the
first keystream put back, restores the memory that the command of `f` changed and leaves the keystream `f` left. -/
theorem onBlock_onBlock_restores {f g : Block → Block → Block × Block} (hgf : ∀ X K, g (f X K).1 K = (X, (f X K).2))
    {s : State} (hfit : s.dstAddr.toNat + 256 ≤ s.params.memSize) :
    ∃ t u, onBlock f s = .next t ∧ t.params = s.params ∧ onBlock g (t.setKs s.ks) = .next u ∧
      State.KeepsMemory s u ∧ u.ks = t.ks ∧ State.CompletedWith s u .ok s.status.ver := by
  obtain ⟨t, hf, htops, htout, htf, htstatus⟩ := onBlock_block_effect f hfit
  have hoperand : blockOperand (t.setKs s.ks) = blockOperand s := by
    simp only [blockOperand, State.setKs_dstAddr, htops.dstAddr]
  have hfit' : (t.setKs s.ks).dstAddr.toNat + 256 ≤ (t.setKs s.ks).params.memSize := by
    simpa only [State.setKs_dstAddr, State.setKs_params, htops.dstAddr, htops.params] using hfit
  obtain ⟨u, hg, -, huout, hug, hustatus⟩ := onBlock_block_effect g hfit'
  have hundo : (u.readBlock s.dstAddr.toNat, u.ks) = (s.readBlock s.dstAddr.toNat, t.ks) := by
    rw [State.setKs_dstAddr, State.setKs_ks, htops.dstAddr] at hug
    have hstored : (t.setKs s.ks).readBlock s.dstAddr.toNat = (f (s.readBlock s.dstAddr.toNat) s.ks).1 :=
      congrArg Prod.fst htf
    rw [hug, hstored, hgf, ← htf]
  obtain ⟨hblock, hks⟩ := Prod.mk.inj hundo
  have hout : s.KeepsMemoryOutside u (blockOperand s) := fun x hx =>
    (huout x (hoperand ▸ hx)).trans (htout x hx)
  refine ⟨t, u, hf, htops.params, hg, State.keepsMemory_of_readBlock_eq hout hblock, hks, ?_⟩
  simpa only [State.CompletedWith, State.setKs_status, htstatus] using hustatus

/-- Settles O20: `dec_step` with P_INV2 undoes `enc_step`, and the parameters it takes its table from are unchanged. -/
theorem encBlkThenDecBlk2RestoresTheBlock : Obligations.EncBlkThenDecBlk2RestoresTheBlock := by
  intro s hinv hfit
  obtain ⟨t, u, henc, hparams, hdec, hend⟩ := onBlock_onBlock_restores (decStep_encStep hinv) hfit
  refine ⟨t, u, henc, ?_, hend⟩
  rw [exec_decBlk2, execDecBlk2_eq, State.setKs_params, hparams, hdec]

/-! ### A changed block (R141) -/

/-- The keystream after `dec_step` is an injective function of the stored block: the block itself or its permutation. -/
theorem decStep_next_injective (p : Params) {T : Table} (hT : T.Bijective) (K : Block) :
    Function.Injective fun S => (decStep p T S K).2 := by
  intro S S' h
  simp only [decStep_next] at h
  cases htap : p.chainTap with
  | prePerm => exact (perm_bijective hT).injective (by simpa only [tap_prePerm htap] using h)
  | postPerm => simpa only [tap_postPerm htap] using h

/-- `X xor` is its own inverse, so it keeps different keystreams different. -/
theorem Block.xor_right_injective (X : Block) : Function.Injective (Block.xor X) := by
  intro K K' h
  apply Vector.ext
  intro i hi
  have hbyte : X[i] ^^^ K[i] = X[i] ^^^ K'[i] := by
    rw [← Block.xor_getElem X K i hi, ← Block.xor_getElem X K' i hi, h]
  exact (BitVec.xor_right_inj X[i]).1 hbyte

/-- Settles O22: the next keystream is injective in the stored block, and the next block is an XOR with it. -/
theorem chainingCarriesEveryChangeOfABlock : Obligations.ChainingCarriesEveryChangeOfABlock := by
  intro p hp T hT S S' K X hne
  have hbij : T.Bijective := by
    simp only [List.mem_cons, List.not_mem_nil, or_false] at hT
    rcases hT with rfl | rfl
    · exact hp.inv1
    · exact hp.inv2
  have hks : (decStep p T S K).2 ≠ (decStep p T S' K).2 := (decStep_next_injective p hbij K).ne hne
  exact ⟨hks, (Block.xor_right_injective (perm T X)).ne hks⟩

end Sys2Proof.Machine

/-!
The Encode Pipeline's command (R145 to R153): where ENCODE ends early, and what it leaves of a non-empty source.
-/
namespace Sys2Proof.Machine

/-! ### The checks of ENCODE (R145, R150) -/

/-- Settles O23: an empty source's regions are valid wherever they start, and overlap nothing. -/
theorem encodeOfAnEmptySourceIsANoOp : Obligations.EncodeOfAnEmptySourceIsANoOp := by
  intro s hempty
  have hlen : s.srcLen.toNat = 0 := congrArg BitVec.toNat hempty
  have hsrc : (sourceOperand s).Valid s.params := .inl hlen
  have hdst : (encodeTarget s).Valid s.params := .inl (if_pos hlen)
  have ho : ¬ (sourceOperand s).Overlaps (encodeTarget s) := fun ho => ho.1.ne' hlen
  rw [exec_encode, execEncode_eq, if_neg (not_not.2 hsrc), if_neg (not_not.2 hdst), if_neg ho, if_pos hlen]

section NonEmptySource

variable {s : State} (hn : s.srcLen.toNat ≠ 0)
include hn

/-- A non-empty source is valid when it ends inside memory (R54). -/
theorem sourceOperand_valid_iff :
    (sourceOperand s).Valid s.params ↔ s.srcAddr.toNat + s.srcLen.toNat ≤ s.params.memSize :=
  or_iff_right hn

/-- The encoded buffer of a non-empty source is valid when it ends inside memory (R54, R153). -/
theorem encodeTarget_valid_iff :
    (encodeTarget s).Valid s.params ↔
      s.dstAddr.toNat + (256 * (s.srcLen.toNat / 256 + 1) + 5) ≤ s.params.memSize := by
  simp [Region.Valid, encodeTarget, encodedLen_of_pos hn]

/-- A non-empty source and its encoded buffer overlap when each starts before the other ends (R55, R153). -/
theorem sourceOperand_overlaps_encodeTarget_iff :
    (sourceOperand s).Overlaps (encodeTarget s) ↔
      s.srcAddr.toNat < s.dstAddr.toNat + (256 * (s.srcLen.toNat / 256 + 1) + 5) ∧
        s.dstAddr.toNat < s.srcAddr.toNat + s.srcLen.toNat := by
  simp only [Region.Overlaps, sourceOperand, encodeTarget, encodedLen_of_pos hn]
  omega

end NonEmptySource

/-- Settles O25: each error is one check of `execEncode_eq`, taken after the ones before it have passed. -/
theorem encodeErrorsWriteOnlyDstLenAndStatus : Obligations.EncodeErrorsWriteOnlyDstLenAndStatus := by
  intro s hne
  have hn : s.srcLen.toNat ≠ 0 := fun h => hne (BitVec.eq_of_toNat_eq h)
  simp only [exec_encode, execEncode_eq, sourceOperand_valid_iff hn, encodeTarget_valid_iff hn,
    sourceOperand_overlaps_encodeTarget_iff hn]
  refine ⟨fun hsrc => if_pos (by omega), fun hsrc => ⟨fun hdst => ?_, fun hdst ho ho' => ?_⟩⟩
  · rw [if_neg (by omega), if_pos (by omega)]
  · rw [if_neg (by omega), if_neg (by omega), if_pos ⟨ho, ho'⟩]

/-! ### The bytes of the encoded buffer (R149) -/

/-- The stored blocks of a plaintext, and the keystream after them (R148, R149). -/
def encodedBlocks (p : Params) (P : List Byte) (s0 : Word) : List Block × Block :=
  encChain p (blocksOf (P.length / 256 + 1) (paddedPayload P)) (fromSeed s0).1

@[simp] theorem be32Bytes_length (s0 : Word) : (be32Bytes s0).length = 4 := rfl

section EncodedBuffer

variable (p : Params) (P : List Byte) (s0 : Word)

/-- The encoded buffer, its seed and its keystream, from the stored blocks. -/
theorem encodeBuffer_eq : encodeBuffer p P s0 =
    { bytes := be32Bytes s0 ++ (bytesOf (encodedBlocks p P s0).1 ++ [marker (nextByte (fromSeed s0).2).1])
      seed := (nextByte (fromSeed s0).2).2
      ks := (encodedBlocks p P s0).2 } := by
  have hblocks : (P.length + padCount P.length) / blockLen = P.length / 256 + 1 := by
    rw [length_add_padCount]
    exact Nat.mul_div_cancel_left _ (by decide)
  simp only [encodeBuffer, hblocks, encodedBlocks]

theorem bytesOf_encodedBlocks_length : (bytesOf (encodedBlocks p P s0).1).length = 256 * (P.length / 256 + 1) := by
  rw [bytesOf_length, encodedBlocks, encChain_length, blocksOf_length]

/-- The header holds the seed, its high byte first (R51). -/
theorem encodeBuffer_getD_header {i : Nat} (hi : i < 4) :
    (encodeBuffer p P s0).bytes.getD i 0 = s0.extractLsb' (24 - 8 * i) 8 := by
  rw [encodeBuffer_eq, List.getD_append _ _ _ _ hi]
  interval_cases i <;> rfl

/-- After the header come the stored blocks and the marker. -/
theorem encodeBuffer_getD_four_add (i : Nat) : (encodeBuffer p P s0).bytes.getD (4 + i) 0 =
    (bytesOf (encodedBlocks p P s0).1 ++ [marker (nextByte (fromSeed s0).2).1]).getD i 0 := by
  rw [encodeBuffer_eq, List.getD_append_right _ _ _ _ (Nat.le_add_right 4 i), be32Bytes_length, Nat.add_sub_cancel_left]

theorem encodeBuffer_getD_payload {i : Nat} (hi : i < 256 * (P.length / 256 + 1)) :
    (encodeBuffer p P s0).bytes.getD (4 + i) 0 = (bytesOf (encodedBlocks p P s0).1).getD i 0 := by
  rw [encodeBuffer_getD_four_add, List.getD_append _ _ _ _ (by rwa [bytesOf_encodedBlocks_length])]

/-- The marker of generator byte 257 is the last byte. -/
theorem encodeBuffer_getD_marker : (encodeBuffer p P s0).bytes.getD (4 + 256 * (P.length / 256 + 1)) 0 =
    marker (nextByte (fromSeed s0).2).1 := by
  have hlen := bytesOf_encodedBlocks_length p P s0
  rw [encodeBuffer_getD_four_add, List.getD_append_right _ _ _ _ hlen.le, hlen, Nat.sub_self]
  rfl

end EncodedBuffer

/-- A buffer's seed is 257 generator steps on (R149). -/
theorem nextByte_fromSeed_seed_toNat (s0 : Word) : (nextByte (fromSeed s0).2).2.toNat = seedAfter s0 257 := by
  rw [fromSeed_snd, generate_seed, ← Function.iterate_succ_apply' (fun x => (nextByte x).2), iterate_nextByte_toNat]

/-- Generator byte 257, from which the marker is made (R149). -/
theorem nextByte_fromSeed_byte (s0 : Word) :
    (nextByte (fromSeed s0).2).1 = BitVec.ofNat 8 (generatorByte s0 257) := by
  apply BitVec.eq_of_toNat_eq
  rw [nextByte_byte_toNat, nextByte_fromSeed_seed_toNat, BitVec.toNat_ofNat, generatorByte]
  exact (Nat.mod_mod _ _).symm

/-! ### The chained encoding in memory (R136, R148) -/

/-- The keystream that an encoding chain hands to block `k`: what the blocks before it leave. -/
def encKeystream (p : Params) (Xs : List Block) (K : Block) (k : Nat) : Block := (encChain p (Xs.take k) K).2

/-- Byte `q` of the padded payload of the source in memory (R76). -/
theorem paddedPayload_readBytes_getD (s : State) (a n q : Nat) :
    (paddedPayload (s.mem.readBytes a n)).getD q 0 = paddedByte s a n q := by
  rw [paddedPayload_getD, Memory.readBytes_length, paddedByte]
  split
  · exact s.mem.readBytes_getD a n q ‹_›
  · rfl

/-- A state that holds at `d` the chained encoding of the padded payload's blocks `Xs`, with the last keystream in KS,
is as R149 says. -/
theorem encodesPayload_of_encChain {s t : State} {a n d : Nat} {Xs : List Block} {K : Block}
    (hlen : Xs.length = n / 256 + 1)
    (hplain : ∀ k i (hk : k < Xs.length) (hi : i < 256), Xs[k][i] = paddedByte s a n (256 * k + i))
    (hmem : ∀ i < 256 * (n / 256 + 1), t.mem.read (d + i) = (bytesOf (encChain s.params Xs K).1).getD i 0)
    (hks : t.ks = (encChain s.params Xs K).2) : EncodesPayload s t a n d (encKeystream s.params Xs K) := by
  have stored : ∀ k i (hk : k < Xs.length) (hi : i < 256),
      t.mem.read (d + 256 * k + i) = (encStep s.params Xs[k] (encKeystream s.params Xs K k)).1[i] := fun k i hk hi => by
    rw [Nat.add_assoc, hmem _ (by omega), bytesOf_getD _ _ _ (by simpa using hk) hi, encChain_getElem]
    rfl
  have next : ∀ k (hk : k < Xs.length), encKeystream s.params Xs K (k + 1) =
      (encStep s.params Xs[k] (encKeystream s.params Xs K k)).2 := fun k hk => encChain_take_succ _ _ _ _ hk
  refine ⟨fun k j w hk hj hw => ?_, fun k i hk hi => ?_, ?_⟩
  · have hT := s.params.pFwd[j].isLt
    rw [stored k _ (by omega) (by omega), encStep_stored _ _ _ j w hj hw, hplain k _ (by omega) (by omega)]
  · rw [next k (by omega), encStep_next]
    cases htap : s.params.chainTap with
    | prePerm => rw [tap_prePerm htap, Block.xor_getElem, hplain k i (by omega) hi]
    | postPerm => rw [tap_postPerm htap, stored k i (by omega) hi]
  · rw [hks, encKeystream, ← hlen, List.take_length]

/-! ### ENCODE of a non-empty source (R149, R150) -/

theorem Memory.readBytes_writeBytes_self (m : Memory) (a : Nat) (bytes : List Byte) :
    (m.writeBytes a bytes).readBytes a bytes.length = bytes := by
  refine List.ext_getElem (by simp) fun i h _ => ?_
  rw [Memory.readBytes_length] at h
  rw [Memory.readBytes_getElem, Memory.read_writeBytes, if_pos (by omega), Nat.add_sub_cancel_left,
    List.getElem_eq_getD]

/-- The destination holds the encoded buffer. -/
theorem encodeResult_readBytes {s : State} (hn : s.srcLen.toNat ≠ 0) :
    (encodeResult s).mem.readBytes s.dstAddr.toNat (256 * (s.srcLen.toNat / 256 + 1) + 5) =
      (encodeBuffer s.params (s.mem.readBytes s.srcAddr.toNat s.srcLen.toNat) s.seed).bytes := by
  have hlen := encodeBuffer_length s.params (s.mem.readBytes s.srcAddr.toNat s.srcLen.toNat) s.seed (by simpa using hn)
  rw [Memory.readBytes_length, encodedLen_of_pos hn] at hlen
  rw [encodeResult_mem, ← hlen, Memory.readBytes_writeBytes_self]

/-- A byte of the destination is that of the encoded buffer. -/
theorem encodeResult_read {s : State} (hn : s.srcLen.toNat ≠ 0) {i : Nat}
    (hi : i < 256 * (s.srcLen.toNat / 256 + 1) + 5) :
    (encodeResult s).mem.read (s.dstAddr.toNat + i) =
      (encodeBuffer s.params (s.mem.readBytes s.srcAddr.toNat s.srcLen.toNat) s.seed).bytes.getD i 0 := by
  rw [← encodeResult_readBytes hn, Memory.readBytes_getD _ _ _ _ hi]

/-- DST_LEN is the encoded length, which does not wrap where the destination fits (R14, R153). -/
theorem encodeResult_dstLen_toNat {s : State} (hn : s.srcLen.toNat ≠ 0) (hsize : s.params.MemSizeOk)
    (hdst : s.dstAddr.toNat + (256 * (s.srcLen.toNat / 256 + 1) + 5) ≤ s.params.memSize) :
    (encodeResult s).dstLen.toNat = 256 * (s.srcLen.toNat / 256 + 1) + 5 := by
  obtain ⟨-, hmax⟩ := hsize
  rw [encodeResult_dstLen, encodedLen_of_pos hn, BitVec.toNat_ofNat]
  exact Nat.mod_eq_of_lt (by omega)

/-- The destination and KS hold the chained encoding of the source, from the seed's keystream on. -/
theorem encodeResult_encodesPayload {s : State} (hn : s.srcLen.toNat ≠ 0) :
    EncodesPayload s (encodeResult s) s.srcAddr.toNat s.srcLen.toNat (s.dstAddr.toNat + 4)
      (encKeystream s.params (blocksOf (s.srcLen.toNat / 256 + 1)
        (paddedPayload (s.mem.readBytes s.srcAddr.toNat s.srcLen.toNat))) (fromSeed s.seed).1) := by
  have hlen : (s.mem.readBytes s.srcAddr.toNat s.srcLen.toNat).length = s.srcLen.toNat := Memory.readBytes_length _ _ _
  refine encodesPayload_of_encChain (blocksOf_length _ _) (fun k i hk hi => ?_) (fun i hi => ?_) ?_
  · rw [blocksOf_getElem_byte _ _ _ _ hk hi, paddedPayload_readBytes_getD]
  · rw [Nat.add_assoc, encodeResult_read hn (by omega), encodeBuffer_getD_payload _ _ _ (by rwa [hlen]),
      encodedBlocks, hlen]
  · rw [encodeResult_ks, encodeBuffer_eq, encodedBlocks, hlen]

/-- Settles O24: the end state is `encodeResult`, whose destination is the encoded buffer, part by part. -/
theorem encodeWritesTheV3Buffer : Obligations.EncodeWritesTheV3Buffer := by
  intro s hsize hne hsrc hdst hdisjoint
  have hn : s.srcLen.toNat ≠ 0 := fun h => hne (BitVec.eq_of_toNat_eq h)
  have ho : ¬ (sourceOperand s).Overlaps (encodeTarget s) := by
    rw [sourceOperand_overlaps_encodeTarget_iff hn]
    omega
  refine ⟨encodeResult s, _, ?_, fun i hi => ?_, isSeedKeystream_fromSeed s.seed, encodeResult_encodesPayload hn,
    ?_, ?_, encodeResult_dstLen_toNat hn hsize hdst, encodeResult_status s⟩
  · exact execEncode_of_fits s hn ((sourceOperand_valid_iff hn).2 hsrc) ((encodeTarget_valid_iff hn).2 hdst) ho
  · rw [encodeResult_read hn (by omega), encodeBuffer_getD_header _ _ _ hi]
  · have hmark := encodeBuffer_getD_marker s.params (s.mem.readBytes s.srcAddr.toNat s.srcLen.toNat) s.seed
    rw [Memory.readBytes_length, nextByte_fromSeed_byte, marker_eq_closedMarker] at hmark
    have hend : s.dstAddr.toNat + 256 * (s.srcLen.toNat / 256 + 1) + 4 =
        s.dstAddr.toNat + (4 + 256 * (s.srcLen.toNat / 256 + 1)) := by omega
    rw [hend, encodeResult_read hn (by omega), hmark]
  · rw [encodeResult_seed, encodeBuffer_eq]
    exact nextByte_fromSeed_seed_toNat s.seed

end Sys2Proof.Machine

/-!
The round trip (R164): `decode` of an encoded buffer, and DECODE of what ENCODE wrote.
-/
namespace Sys2Proof.Machine

/-! ### `decode` of an encoded buffer -/

/-- The length of an encoded buffer is version 3's (R153, R156). -/
theorem versionOf_encoded (k : Nat) : versionOf (256 * k + 5) = some .v3 := by
  have hmod : (256 * k + 5) % 256 = 5 := by omega
  simp [versionOf, hmod]

section EncodedBuffer

variable (p : Params) (P : List Byte) (s0 : Word)

/-- The header gives the seed back (R51, R157). -/
theorem headerSeed_encodeBuffer : headerSeed (encodeBuffer p P s0).bytes = s0 := by
  have hbyte : ∀ i < 4, (encodeBuffer p P s0).bytes.getD i 0 = s0.extractLsb' (24 - 8 * i) 8 :=
    fun _ => encodeBuffer_getD_header p P s0
  rw [headerSeed, hbyte 0 (by decide), hbyte 1 (by decide), hbyte 2 (by decide), hbyte 3 (by decide)]
  exact be32_be32Bytes s0

/-- What lies between the header and the marker is the stored blocks (R160). -/
theorem slice_encodeBuffer : slice (encodeBuffer p P s0).bytes 4 ((encodeBuffer p P s0).bytes.length - 1) =
    bytesOf (encodedBlocks p P s0).1 := by
  have hlen : (encodeBuffer p P s0).bytes.length - 1 - 4 = (bytesOf (encodedBlocks p P s0).1).length := by
    simp [encodeBuffer_eq]
  rw [slice, hlen, encodeBuffer_eq, List.drop_left' (be32Bytes_length s0), List.take_left]

/-- The marker is the right one, so the stored blocks are decoded from the keystream they were encoded from (R160). -/
theorem decodeBuffer_encodeBuffer (hP : P.length ≠ 0) : decodeBuffer p (encodeBuffer p P s0).bytes =
    decodePayload p .v3 (bytesOf (encodedBlocks p P s0).1) (some (encodeBuffer p P s0).seed) (fromSeed s0).1 := by
  have hlen : (encodeBuffer p P s0).bytes.length = 256 * (P.length / 256 + 1) + 5 := by
    rw [encodeBuffer_length p P s0 hP, encodedLen_of_pos hP]
  have hver : versionOf (encodeBuffer p P s0).bytes.length = some .v3 := by
    rw [hlen, versionOf_encoded]
  have hmark : (encodeBuffer p P s0).bytes.getD ((encodeBuffer p P s0).bytes.length - 1) 0 =
      marker (nextByte (fromSeed (headerSeed (encodeBuffer p P s0).bytes)).2).1 := by
    rw [headerSeed_encodeBuffer, hlen,
      show 256 * (P.length / 256 + 1) + 5 - 1 = 4 + 256 * (P.length / 256 + 1) by omega, encodeBuffer_getD_marker]
  rcases decodeBuffer_cases p _ (by omega) hver with ⟨h, -⟩ | ⟨h, -⟩ | ⟨-, ⟨h, -⟩ | ⟨-, h⟩⟩
  · cases h
  · cases h
  · exact absurd hmark h
  · rw [h, headerSeed_encodeBuffer, slice_encodeBuffer, encodeBuffer_eq]

/-- The decoding chain gives the padded payload's blocks and the encoder's last keystream back (R140, R160). -/
theorem decodedBlocks_encodedBlocks (hinv : Table.Inverts p.pFwd p.pInv2) :
    decodedBlocks p .v3 (bytesOf (encodedBlocks p P s0).1) (fromSeed s0).1 =
      (blocksOf (P.length / 256 + 1) (paddedPayload P), (encodedBlocks p P s0).2) := by
  have hlen : (bytesOf (encodedBlocks p P s0).1).length / 256 = (encodedBlocks p P s0).1.length := by
    rw [bytesOf_length]
    exact Nat.mul_div_cancel_left _ (by decide)
  have hblocks := blocksOf_bytesOf (encodedBlocks p P s0).1 []
  rw [List.append_nil] at hblocks
  rw [decodedBlocks, hlen, hblocks]
  exact decChain_encChain hinv _ _

/-- The pad count that the last byte of a padded payload stands for: under ZERO_IS_CORRUPT the count 256, stored as 0,
is lost (R11, R159). -/
theorem storedPad_paddedPayload (m : Pad0Mode) (n : Nat) : storedPad m (BitVec.ofNat 8 (256 - n % 256)) =
    if m = .zeroIsCorrupt ∧ n % 256 = 0 then 0 else 256 - n % 256 := by
  by_cases hn : n % 256 = 0
  · have hq : BitVec.ofNat 8 (256 - n % 256) = 0 := by rw [hn]; rfl
    rw [hq]
    cases m <;> simp [storedPad, hn]
  · have hq : (BitVec.ofNat 8 (256 - n % 256)).toNat = 256 - n % 256 :=
      (BitVec.toNat_ofNat _ _).trans (Nat.mod_eq_of_lt (by omega))
    have hne : BitVec.ofNat 8 (256 - n % 256) ≠ 0 := fun h => by
      have hzero : 256 - n % 256 = 0 := by rw [← hq, h]; rfl
      omega
    rw [if_neg fun h => hn h.2]
    cases m with
    | zeroIs256 => exact (if_neg hne).trans hq
    | zeroIsCorrupt => exact hq

/-- R164 on buffers: the plaintext comes back, but under ZERO_IS_CORRUPT one of whole blocks ends as CorruptPadding. -/
theorem decodeBuffer_encodeBuffer_eq (hinv : Table.Inverts p.pFwd p.pInv2) (hP : P.length ≠ 0) :
    decodeBuffer p (encodeBuffer p P s0).bytes =
      if p.pad0Mode = .zeroIsCorrupt ∧ P.length % 256 = 0 then
        .corruptPadding .v3 (paddedPayload P) (some (encodeBuffer p P s0).seed) (encodeBuffer p P s0).ks
      else .ok .v3 (paddedPayload P) P.length (some (encodeBuffer p P s0).seed) (encodeBuffer p P s0).ks := by
  have hlast : (paddedPayload P).getD (256 * (P.length / 256 + 1) - 1) 0 = BitVec.ofNat 8 (256 - P.length % 256) := by
    rw [paddedPayload_getD, if_neg (by omega), if_pos (by omega)]
  have hks : (encodedBlocks p P s0).2 = (encodeBuffer p P s0).ks := by rw [encodeBuffer_eq]
  rw [decodeBuffer_encodeBuffer p P s0 hP, decodePayload_eq, decodedBlocks_encodedBlocks p P s0 hinv,
    bytesOf_blocksOf _ _ (paddedPayload_length P), bytesOf_encodedBlocks_length, hlast, storedPad_paddedPayload, hks]
  by_cases hc : p.pad0Mode = .zeroIsCorrupt ∧ P.length % 256 = 0
  · rw [if_pos hc, if_pos hc, if_pos (.inl rfl)]
  · rw [if_neg hc, if_neg hc, if_neg (by omega)]
    congr 1
    omega

end EncodedBuffer

/-! ### DECODE after ENCODE -/

/-- An encoded buffer is no shorter than DECODE asks (R153, R161). -/
theorem le_encoded_length (n : Nat) : 261 ≤ 256 * (n / 256 + 1) + 5 := by omega

/-- The state ENCODE leaves, with its destination as the source and `x` as the destination of DECODE. -/
def encodedAsSource (s : State) (x : Word) : State :=
  (((encodeResult s).setSrcAddr s.dstAddr).setSrcLen (encodeResult s).dstLen).setDstAddr x

@[simp] theorem encodedAsSource_params (s : State) (x : Word) : (encodedAsSource s x).params = s.params := by
  simp [encodedAsSource]

@[simp] theorem encodedAsSource_srcAddr (s : State) (x : Word) : (encodedAsSource s x).srcAddr = s.dstAddr := by
  simp [encodedAsSource]

@[simp] theorem encodedAsSource_srcLen (s : State) (x : Word) :
    (encodedAsSource s x).srcLen = (encodeResult s).dstLen := by
  simp [encodedAsSource]

@[simp] theorem encodedAsSource_dstAddr (s : State) (x : Word) : (encodedAsSource s x).dstAddr = x := by
  simp [encodedAsSource]

@[simp] theorem encodedAsSource_mem (s : State) (x : Word) : (encodedAsSource s x).mem = (encodeResult s).mem := by
  simp [encodedAsSource]

/-- DECODE of what ENCODE wrote runs the transform on the encoded buffer, as version 3 (R156, R161). -/
theorem execDecode_encodedAsSource {s : State} {x : Word} (hn : s.srcLen.toNat ≠ 0) (hsize : s.params.MemSizeOk)
    (hdst : s.dstAddr.toNat + (256 * (s.srcLen.toNat / 256 + 1) + 5) ≤ s.params.memSize)
    (hx : x.toNat + 256 * (s.srcLen.toNat / 256 + 1) ≤ s.params.memSize)
    (hdisjoint : x.toNat + 256 * (s.srcLen.toNat / 256 + 1) ≤ s.dstAddr.toNat ∨
      s.dstAddr.toNat + (256 * (s.srcLen.toNat / 256 + 1) + 5) ≤ x.toNat) :
    execDecode (encodedAsSource s x) = finishDecode (decodeStart (encodedAsSource s x) (some .v3)) x.toNat
      (decodeBuffer s.params
        (encodeBuffer s.params (s.mem.readBytes s.srcAddr.toNat s.srcLen.toNat) s.seed).bytes) := by
  have hlen : (encodedAsSource s x).srcLen.toNat = 256 * (s.srcLen.toNat / 256 + 1) + 5 := by
    rw [encodedAsSource_srcLen, encodeResult_dstLen_toNat hn hsize hdst]
  have hver : versionOf (encodedAsSource s x).srcLen.toNat = some .v3 := by rw [hlen, versionOf_encoded]
  have hsource : sourceOperand (encodedAsSource s x) =
      ⟨s.dstAddr.toNat, 256 * (s.srcLen.toNat / 256 + 1) + 5⟩ := by
    rw [sourceOperand, hlen, encodedAsSource_srcAddr]
  have htarget : decodeTarget (encodedAsSource s x) .v3 = ⟨x.toNat, 256 * (s.srcLen.toNat / 256 + 1)⟩ := by
    rw [decodeTarget, hlen, encodedAsSource_dstAddr]
    rfl
  have hsrcOk : (sourceOperand (encodedAsSource s x)).Valid (encodedAsSource s x).params := by
    rw [hsource, encodedAsSource_params]
    exact .inr hdst
  have hdstOk : (decodeTarget (encodedAsSource s x) .v3).Valid (encodedAsSource s x).params := by
    rw [htarget, encodedAsSource_params]
    exact .inr hx
  have ho : ¬ (sourceOperand (encodedAsSource s x)).Overlaps (decodeTarget (encodedAsSource s x) .v3) := by
    simp only [hsource, htarget, Region.Overlaps]
    omega
  rw [execDecode_of_fits _ hsrcOk ((le_encoded_length _).trans_eq hlen.symm) hver hdstOk ho, hlen,
    encodedAsSource_params, encodedAsSource_srcAddr, encodedAsSource_dstAddr, encodedAsSource_mem,
    encodeResult_readBytes hn]

/-- Settles O35: DECODE's source is the buffer ENCODE wrote, which `decodeBuffer_encodeBuffer_eq` decodes. -/
theorem encodeThenDecodeRestoresThePlaintext : Obligations.EncodeThenDecodeRestoresThePlaintext := by
  intro s x hok hpad hne hsrc hdst ho hx hdisjoint
  have hn : s.srcLen.toNat ≠ 0 := fun h => hne (BitVec.eq_of_toNat_eq h)
  have hdec := execDecode_encodedAsSource hn hok.memSize ((encodeTarget_valid_iff hn).1 hdst) hx hdisjoint
  rw [decodeBuffer_encodeBuffer_eq _ _ _ hok.inverse (by simpa using hn), if_neg (by simp [hpad]),
    finishDecode_eq] at hdec
  refine ⟨encodeResult s, _, execEncode_of_fits s hn hsrc hdst ho, hdec, fun i hi => ?_, ?_, ?_, ?_, ?_⟩
  · have hP : i < (s.mem.readBytes s.srcAddr.toNat s.srcLen.toNat).length := by simpa using hi
    have hY := paddedPayload_length (s.mem.readBytes s.srcAddr.toNat s.srcLen.toNat)
    rw [State.complete_mem, State.setDstLen_mem, State.setWorkingSeed_mem, State.setKs_mem, State.writeBytes_mem,
      Memory.read_writeBytes, if_pos (by omega), Nat.add_sub_cancel_left, paddedPayload_getD, if_pos hP,
      Memory.readBytes_getD _ _ _ _ hi]
  · simp
  · simp
  · simp
  · simp [State.CompletedWith, encodedAsSource]

end Sys2Proof.Machine

/-!
DECODE's command and the `decode` it runs (R155 to R166): the errors in the order they are checked, the buffers of v3,
when CorruptPadding occurs, that a changed marker is detected, and that neither pipeline depends on the old keystream.
-/
namespace Sys2Proof.Machine

/-! ### Detection of the version (R80, R155, R156) -/

theorem versionOf_eq_v3_iff {len : Nat} : versionOf len = some .v3 ↔ len % 256 = 5 := by
  refine ⟨fun h => ?_, fun h => by simp [versionOf, h]⟩
  by_contra hmod
  exact versionOf_ne_v3 h hmod rfl

theorem versionOf_eq_none {len : Nat} (h : len % 256 ∉ [32, 33, 5]) : versionOf len = none := by
  simp only [List.mem_cons, List.not_mem_nil, or_false, not_or] at h
  obtain ⟨h1, h2, h3⟩ := h
  rw [versionOf, if_neg h1, if_neg h2, if_neg h3]

/-- Each row of R156 with what its buffers hold besides the payload, which is also their length modulo 256 (R80). -/
theorem versionOf_and_payloadLen_of_row {c : Version × Nat} {len : Nat}
    (hc : c ∈ [(Version.v1, 32), (.v2, 33), (.v3, 5)]) (hmod : len % 256 = c.2) :
    versionOf len = some c.1 ∧ payloadLen c.1 len = len - c.2 := by
  simp only [List.mem_cons, List.not_mem_nil, or_false] at hc
  rcases hc with rfl | rfl | rfl
  · exact ⟨versionOf_legacy (.inl ⟨rfl, rfl⟩) hmod, rfl⟩
  · exact ⟨versionOf_legacy (.inr ⟨rfl, rfl⟩) hmod, rfl⟩
  · exact ⟨versionOf_eq_v3_iff.2 hmod, rfl⟩

/-! ### The checks of DECODE (R161, R188) -/

/-- Settles O26: each error is one of the first three checks of `execDecode_eq`, the ones before it passed. -/
theorem decodeErrorsBeforeTheVersionIsKnown : Obligations.DecodeErrorsBeforeTheVersionIsKnown := by
  intro s
  rw [exec_decode, execDecode_eq]
  refine ⟨fun hne hrange => ?_, fun hfit => ?_⟩
  · have hn : s.srcLen.toNat ≠ 0 := fun h => hne (BitVec.eq_of_toNat_eq h)
    rw [if_pos (by rw [sourceOperand_valid_iff hn]; omega)]
    rfl
  · have hvalid : (sourceOperand s).Valid s.params := hfit.imp_left (congrArg BitVec.toNat)
    rw [if_neg (not_not.2 hvalid)]
    refine ⟨fun hshort => if_pos hshort, fun hl hmod => ?_⟩
    rw [if_neg (by omega), versionOf_eq_none hmod]
    rfl

/-- A source of 261 bytes or more and its payload's region overlap when each starts before the other ends (R55). -/
theorem sourceOperand_overlaps_decodeTarget_iff {s : State} {v : Version} (hl : 261 ≤ s.srcLen.toNat)
    (hv : versionOf s.srcLen.toNat = some v) :
    (sourceOperand s).Overlaps (decodeTarget s v) ↔
      s.srcAddr.toNat < s.dstAddr.toNat + payloadLen v s.srcLen.toNat ∧
        s.dstAddr.toNat < s.srcAddr.toNat + s.srcLen.toNat := by
  have hpos := (payloadLen_blocks hl hv).2
  simp only [Region.Overlaps, sourceOperand, decodeTarget]
  omega

/-- A payload's region is valid when it ends inside memory (R54). -/
theorem decodeTarget_valid_iff {s : State} {v : Version} (hl : 261 ≤ s.srcLen.toNat)
    (hv : versionOf s.srcLen.toNat = some v) :
    (decodeTarget s v).Valid s.params ↔ s.dstAddr.toNat + payloadLen v s.srcLen.toNat ≤ s.params.memSize := by
  have hpos := (payloadLen_blocks hl hv).2
  exact or_iff_right (by simp only [decodeTarget]; omega)

/-- Settles O27: the last two checks of `execDecode_eq`, for the version of the row. -/
theorem decodeErrorsOfTheDestination : Obligations.DecodeErrorsOfTheDestination := by
  intro s c hc hl hmod hsrc
  obtain ⟨hv, hlen⟩ := versionOf_and_payloadLen_of_row hc hmod
  rw [exec_decode, execDecode_eq, if_neg (not_not.2 (.inr hsrc)), if_neg (by omega), hv]
  simp only [decodeTarget_valid_iff hl hv, sourceOperand_overlaps_decodeTarget_iff hl hv, hlen]
  refine ⟨fun hrange => if_pos (by omega), fun hdst ho ho' => ?_⟩
  rw [if_neg (by omega), if_pos ⟨ho, ho'⟩]
  rfl

/-! ### The buffers of v3 (R157, R158) -/

/-- The header's four bytes, the high byte first, are its seed (R51, R157). -/
theorem headerSeed_eq {B : List Byte} {h : Word} (hB : ∀ i < 4, B.getD i 0 = h.extractLsb' (24 - 8 * i) 8) :
    headerSeed B = h := by
  rw [headerSeed, hB 0 (by decide), hB 1 (by decide), hB 2 (by decide), hB 3 (by decide)]
  exact be32_be32Bytes h

/-- The marker of generator byte 257, in its closed form (R112, R158). -/
theorem marker_nextByte_fromSeed (h : Word) :
    marker (nextByte (fromSeed h).2).1 = closedMarker (BitVec.ofNat 8 (generatorByte h 257)) := by
  rw [marker_eq_closedMarker, nextByte_fromSeed_byte]

/-- `decode` of a v3 buffer, by whether its last byte is the marker of its header's seed (R158, R160). -/
theorem decodeBuffer_v3 (p : Params) {B : List Byte} {h : Word} (hl : 261 ≤ B.length) (hmod : B.length % 256 = 5)
    (hseed : headerSeed B = h) :
    decodeBuffer p B =
      if B.getD (B.length - 1) 0 = closedMarker (BitVec.ofNat 8 (generatorByte h 257)) then
        decodePayload p .v3 (slice B 4 (B.length - 1)) (some (nextByte (fromSeed h).2).2) (fromSeed h).1
      else .integrityMismatch := by
  subst hseed
  rw [← marker_nextByte_fromSeed]
  rcases decodeBuffer_cases p B hl (versionOf_eq_v3_iff.2 hmod) with
    ⟨hv, -⟩ | ⟨hv, -⟩ | ⟨-, ⟨hmark, e⟩ | ⟨hmark, e⟩⟩
  · cases hv
  · cases hv
  · rw [e, if_neg hmark]
  · rw [e, if_pos hmark]

section V3Source

variable {s : State} {h : Word} (hl : 261 ≤ s.srcLen.toNat) (hmod : s.srcLen.toNat % 256 = 5)
  (hsrc : s.srcAddr.toNat + s.srcLen.toNat ≤ s.params.memSize)
  (hdst : s.dstAddr.toNat + (s.srcLen.toNat - 5) ≤ s.params.memSize)
  (hdisjoint : s.srcAddr.toNat + s.srcLen.toNat ≤ s.dstAddr.toNat ∨
    s.dstAddr.toNat + (s.srcLen.toNat - 5) ≤ s.srcAddr.toNat)
  (hheader : ∀ i < 4, s.mem.read (s.srcAddr.toNat + i) = h.extractLsb' (24 - 8 * i) 8)

include hl hmod hheader in
/-- `decode` of a v3 source in memory whose header is the seed `h`. -/
theorem decodeBuffer_readBytes_v3 :
    decodeBuffer s.params (s.mem.readBytes s.srcAddr.toNat s.srcLen.toNat) =
      if s.mem.read (s.srcAddr.toNat + s.srcLen.toNat - 1) =
          closedMarker (BitVec.ofNat 8 (generatorByte h 257)) then
        decodePayload s.params .v3
          (slice (s.mem.readBytes s.srcAddr.toNat s.srcLen.toNat) 4 (s.srcLen.toNat - 1))
          (some (nextByte (fromSeed h).2).2) (fromSeed h).1
      else .integrityMismatch := by
  have hseed : headerSeed (s.mem.readBytes s.srcAddr.toNat s.srcLen.toNat) = h := headerSeed_eq fun i hi => by
    rw [Memory.readBytes_getD _ _ _ _ (by omega), hheader i hi]
  rw [decodeBuffer_v3 s.params (by simpa using hl) (by simpa using hmod) hseed, Memory.readBytes_length,
    Memory.readBytes_getD _ _ _ _ (by omega), Nat.add_sub_assoc (by omega)]

include hl hmod hsrc hdst hdisjoint in
/-- DECODE of a v3 source whose regions fit and do not overlap ends as `decode` of the source does (R161). -/
theorem execDecode_v3 :
    exec .decode s = finishDecode (decodeStart s (some .v3)) s.dstAddr.toNat
      (decodeBuffer s.params (s.mem.readBytes s.srcAddr.toNat s.srcLen.toNat)) := by
  have hv : versionOf s.srcLen.toNat = some .v3 := versionOf_eq_v3_iff.2 hmod
  have hlen : payloadLen .v3 s.srcLen.toNat = s.srcLen.toNat - 5 := rfl
  refine execDecode_of_fits s (.inr hsrc) hl hv ((decodeTarget_valid_iff hl hv).2 hdst) ?_
  rw [sourceOperand_overlaps_decodeTarget_iff hl hv, hlen]
  omega

end V3Source

/-- Settles O28: `decode` returns IntegrityMismatch, whose end writes STATUS alone. -/
theorem decodeMarkerMismatchWritesNoOutput : Obligations.DecodeMarkerMismatchWritesNoOutput := by
  intro s h hl hmod hsrc hdst hdisjoint hheader hmark
  rw [execDecode_v3 hl hmod hsrc hdst hdisjoint, decodeBuffer_readBytes_v3 hl hmod hheader, if_neg hmark]
  rfl

/-- Settles O30: the payload between header and marker is decoded from the header's keystream, as
`finishDecode_decodePayload` says. -/
theorem decodeOfV3Buffers : Obligations.DecodeOfV3Buffers := by
  intro s h _ hl hmod hsrc hdst hdisjoint hheader hmark
  have hlen : (slice (s.mem.readBytes s.srcAddr.toNat s.srcLen.toNat) 4 (s.srcLen.toNat - 1)).length =
      s.srcLen.toNat - 5 := by
    rw [slice_length, Memory.readBytes_length]
    omega
  obtain ⟨t, ht, hpayload, hseed, hpad⟩ := finishDecode_decodePayload (s := s) (v := .v3) (a := s.srcAddr.toNat + 4)
    (d := s.dstAddr.toNat) (some (nextByte (fromSeed h).2).2) (fromSeed h).1
    (by rw [hlen]; omega) (by rw [hlen]; omega) (by rw [hlen]; omega)
    (fun i hi => by
      rw [hlen] at hi
      rw [slice_getD _ _ _ _ (by omega), Memory.readBytes_getD _ _ _ _ (by omega), Nat.add_assoc])
  rw [hlen] at hpayload hpad
  refine ⟨t, _, ?_, ?_, hpayload, ?_, hpad⟩
  · rw [execDecode_v3 hl hmod hsrc hdst hdisjoint, decodeBuffer_readBytes_v3 hl hmod hheader, if_pos hmark, ht]
  · rw [decKeystream_zero]
    exact isSeedKeystream_fromSeed h
  · rw [hseed, Option.getD_some, nextByte_fromSeed_seed_toNat]

/-! ### What `decode` can return (R160) -/

/-- A buffer that is too short or of no version is not decoded (R155, R156). -/
theorem decodeBuffer_detects (p : Params) (B : List Byte) :
    decodeBuffer p B = .tooShort ∨ decodeBuffer p B = .unknownVersion ∨
      ∃ v, 261 ≤ B.length ∧ versionOf B.length = some v := by
  by_cases hl : B.length < 261
  · exact .inl (if_pos hl)
  · cases hv : versionOf B.length with
    | none =>
      refine .inr (.inl ((if_neg hl).trans ?_))
      rw [hv]
    | some v => exact .inr (.inr ⟨v, by omega, rfl⟩)

/-- A buffer of a known version gives an integrity mismatch, or the result of a payload of whole blocks, with a working seed
where the version is v3. -/
theorem decodeBuffer_eq_decodePayload (p : Params) {B : List Byte} {v : Version} (hl : 261 ≤ B.length)
    (hv : versionOf B.length = some v) :
    decodeBuffer p B = .integrityMismatch ∨
      ∃ payload w K, payload.length = payloadLen v B.length ∧ (v = .v3 → w.isSome) ∧
        decodeBuffer p B = decodePayload p v payload w K := by
  rcases decodeBuffer_cases p B hl hv with ⟨rfl, e⟩ | ⟨rfl, e⟩ | ⟨rfl, ⟨-, e⟩ | ⟨-, e⟩⟩
  · exact .inr ⟨_, _, _, by simp [payloadLen, ivLen], nofun, e⟩
  · exact .inr ⟨_, _, _, by simp [payloadLen, ivLen]; omega, nofun, e⟩
  · exact .inl e
  · exact .inr ⟨_, _, _, by simp [payloadLen, seedHeaderLen]; omega, fun _ => rfl, e⟩

/-! ### CorruptPadding (R159, R165) -/

theorem storedPad_le (m : Pad0Mode) (q : Byte) : storedPad m q ≤ 256 := by
  have hq := q.isLt
  cases m with
  | zeroIs256 => simp only [storedPad]; split <;> omega
  | zeroIsCorrupt => exact hq.le

/-- Only a stored 0 under ZERO_IS_CORRUPT stands for no pad count (R11, R159). -/
theorem storedPad_eq_zero_iff (m : Pad0Mode) (q : Byte) : storedPad m q = 0 ↔ m = .zeroIsCorrupt ∧ q = 0 := by
  have hq : q.toNat = 0 ↔ q = 0 := BitVec.toNat_inj (y := 0)
  cases m with
  | zeroIs256 =>
    refine iff_of_false (fun h => ?_) nofun
    rw [storedPad] at h
    split at h
    · cases h
    · exact absurd (hq.1 h) ‹_›
  | zeroIsCorrupt => rw [storedPad, hq, and_iff_right rfl]

/-- One block or more is no shorter than any pad count, so the pad test fails for the pad count 0 alone (R159, R165). -/
theorem padTest_iff (mode : Pad0Mode) {Y : List Byte} {m : Nat} (hlen : Y.length = m) (hpos : 256 ≤ m) :
    (storedPad mode (Y.getD (m - 1) 0) = 0 ∨ m < storedPad mode (Y.getD (m - 1) 0)) ↔
      mode = .zeroIsCorrupt ∧ Y.getLast? = some 0 := by
  have hlast : Y.getLast? = some (Y.getD (m - 1) 0) := by
    rw [List.getLast?_eq_getElem?, hlen, List.getD_eq_getElem _ _ (by omega), List.getElem?_eq_getElem]
  rw [or_iff_left ((storedPad_le _ _).trans hpos).not_gt, storedPad_eq_zero_iff, hlast, Option.some_inj]

/-- The result is CorruptPadding exactly where R165 says: a decoded last byte 0 under ZERO_IS_CORRUPT. -/
def Decoded.PadRule (mode : Pad0Mode) : Decoded → Prop
  | .corruptPadding _ Y _ _ => mode = .zeroIsCorrupt ∧ Y.getLast? = some 0
  | .ok _ Y _ _ _ => ¬ (mode = .zeroIsCorrupt ∧ Y.getLast? = some 0)
  | .tooShort | .unknownVersion | .integrityMismatch => True

theorem decodePayload_padRule (p : Params) (v : Version) (payload : List Byte) (w : Option Word) (K : Block)
    (hblocks : payload.length = 256 * (payload.length / 256)) (hpos : 256 ≤ payload.length) :
    (decodePayload p v payload w K).PadRule p.pad0Mode := by
  have htest := padTest_iff p.pad0Mode (decodedPayload_length p v payload K hblocks) hpos
  rw [decodePayload_eq]
  split
  · exact htest.1 ‹_›
  · exact mt htest.2 ‹_›

theorem decodeBuffer_padRule (p : Params) (B : List Byte) : (decodeBuffer p B).PadRule p.pad0Mode := by
  rcases decodeBuffer_detects p B with e | e | ⟨v, hl, hv⟩
  · rw [e]; trivial
  · rw [e]; trivial
  · obtain ⟨hblocks, hpos⟩ := payloadLen_blocks hl hv
    rcases decodeBuffer_eq_decodePayload p hl hv with e | ⟨payload, w, K, hlen, -, e⟩
    · rw [e]; trivial
    · rw [e]
      exact decodePayload_padRule p v payload w K (by rwa [hlen]) (by rwa [hlen])

/-- Settles O31: both directions are `decodeBuffer_padRule` at the result in question. -/
theorem corruptPaddingIsExactlyAZeroLastByteUnderZeroIsCorrupt :
    Obligations.CorruptPaddingIsExactlyAZeroLastByteUnderZeroIsCorrupt := by
  intro p B
  have hrule := decodeBuffer_padRule p B
  refine ⟨fun hmode v Y w K e => ?_, fun hmode => ⟨fun v Y w K e => ?_, fun v Y n w K e hzero => ?_⟩⟩
  · rw [e] at hrule
    obtain ⟨hcorrupt, -⟩ := hrule
    simp [hmode] at hcorrupt
  · rw [e] at hrule
    exact hrule.2
  · rw [e] at hrule
    exact hrule ⟨hmode, hzero⟩

/-! ### A changed marker (R166) -/

/-- The version a result names (R160). -/
def Decoded.version : Decoded → Option Version
  | .corruptPadding v _ _ _ => some v
  | .ok v _ _ _ _ => some v
  | .tooShort | .unknownVersion | .integrityMismatch => none

theorem decodePayload_version (p : Params) (v : Version) (payload : List Byte) (w : Option Word) (K : Block) :
    (decodePayload p v payload w K).version = some v := by
  rw [decodePayload_eq]
  split <;> rfl

/-- A result names the version that the buffer's length detects (R156). -/
theorem versionOf_of_decodeBuffer_version {p : Params} {B : List Byte} {v : Version}
    (h : (decodeBuffer p B).version = some v) : 261 ≤ B.length ∧ versionOf B.length = some v := by
  rcases decodeBuffer_detects p B with e | e | ⟨u, hl, hv⟩
  · rw [e] at h; cases h
  · rw [e] at h; cases h
  · rcases decodeBuffer_eq_decodePayload p hl hv with e | ⟨payload, w, K, -, -, e⟩
    · rw [e] at h; cases h
    · rw [e, decodePayload_version] at h
      exact ⟨hl, hv.trans h⟩

/-- The last byte is no part of the header. -/
theorem headerSeed_append {l : List Byte} (hl : 4 ≤ l.length) (b : Byte) : headerSeed (l ++ [b]) = headerSeed l := by
  have hbyte : ∀ i < 4, (l ++ [b]).getD i 0 = l.getD i 0 := fun i hi => List.getD_append _ _ _ _ (by omega)
  rw [headerSeed, headerSeed, hbyte 0 (by decide), hbyte 1 (by decide), hbyte 2 (by decide), hbyte 3 (by decide)]

/-- A v3 buffer, as its last byte after the others, is an IntegrityMismatch exactly when that byte is not the marker of
the seed in the others (R158). -/
theorem decodeBuffer_v3_append_eq_integrityMismatch_iff (p : Params) {l : List Byte} (b : Byte) (hl : 260 ≤ l.length)
    (hmod : l.length % 256 = 4) :
    decodeBuffer p (l ++ [b]) = .integrityMismatch ↔
      b ≠ closedMarker (BitVec.ofNat 8 (generatorByte (headerSeed l) 257)) := by
  have hlen : (l ++ [b]).length = l.length + 1 := by simp
  have hlast : (l ++ [b]).getD ((l ++ [b]).length - 1) 0 = b := by simp
  rw [decodeBuffer_v3 p (by omega) (by omega) (headerSeed_append (by omega) b), hlast]
  split
  · rename_i hb
    refine ⟨fun e => ?_, fun hne => absurd hb hne⟩
    have hver := congrArg Decoded.version e
    rw [decodePayload_version] at hver
    cases hver
  · exact iff_of_true rfl ‹_›

/-- Settles O32: both buffers have the same header, so at most one of the two last bytes is its marker. -/
theorem aChangedMarkerByteIsAlwaysDetected : Obligations.AChangedMarkerByteIsAlwaysDetected := by
  intro p B b Y n w K hdecoded hlast
  have hver : (decodeBuffer p B).version = some .v3 := by
    rcases hdecoded with e | e <;> rw [e] <;> rfl
  obtain ⟨hl, hv⟩ := versionOf_of_decodeBuffer_version hver
  have hmod := versionOf_eq_v3_iff.1 hv
  obtain ⟨l, c, rfl⟩ : ∃ l c, B = l ++ [c] :=
    ⟨_, _, (List.dropLast_concat_getLast (List.ne_nil_of_length_pos (by omega))).symm⟩
  rw [List.length_append, List.length_singleton] at hl hmod
  have hright : c = closedMarker (BitVec.ofNat 8 (generatorByte (headerSeed l) 257)) := by
    by_contra hc
    rw [(decodeBuffer_v3_append_eq_integrityMismatch_iff p c (by omega) (by omega)).2 hc] at hver
    cases hver
  rw [List.dropLast_concat, decodeBuffer_v3_append_eq_integrityMismatch_iff p b (by omega) (by omega), ← hright]
  rintro rfl
  exact hlast List.getLast?_concat

/-! ### The round trip (R164) -/

/-- Settles O34: the decoded payload is the padded payload, which begins with the plaintext. -/
theorem decodeUndoesEncode : Obligations.DecodeUndoesEncode := by
  intro p P s hinv hne
  exact ⟨paddedPayload P, List.take_left, decodeBuffer_encodeBuffer_eq p P s hinv (mt List.length_eq_zero_iff.1 hne)⟩

/-! ### Independence of the old keystream (R161, R216) -/

/-- ENCODE takes its keystream from SEED, and writes KS (R149, R150). -/
theorem encodeResult_setKs (s : State) (K : Block) : encodeResult (s.setKs K) = encodeResult s := rfl

/-- A successful ENCODE of a non-empty source ends as `encodeResult` says (R150). -/
theorem execEncode_setKs_of_ok {s t : State} (K : Block) (ht : execEncode s = .next t) (hok : t.status.err = .ok)
    (hn : s.srcLen.toNat ≠ 0) : execEncode (s.setKs K) = .next t := by
  rcases execEncode_cases s with ⟨c, hc, e⟩ | ⟨-, hsrc, hdst, ho, e⟩
  · obtain rfl : (s.setDstLen 0).complete c = t := Host.Outcome.next.inj (e.symm.trans ht)
    obtain rfl : c = .ok := hok
    simp [hn] at hc
  · rw [execEncode_of_fits (s.setKs K) hn hsrc hdst ho, encodeResult_setKs, ← e, ht]

/-- Only an OK result of `decode` ends DECODE with OK (R161). -/
theorem eq_ok_of_finishDecode {s t : State} {d : Nat} {r : Decoded} (ht : finishDecode s d r = .next t)
    (hok : t.status.err = .ok) : ∃ v Y n w K, r = .ok v Y n w K := by
  rw [finishDecode_eq, Host.Outcome.next.injEq] at ht
  subst ht
  cases r with
  | tooShort => cases hok
  | unknownVersion => cases hok
  | integrityMismatch => cases hok
  | corruptPadding v Y w K => simp at hok
  | ok v Y n w K => exact ⟨v, Y, n, w, K, rfl⟩

/-- A successful end of DECODE overwrites KS, and SEED where there is a working seed (R161). -/
theorem finishDecode_ok_setKs_setSeed (s : State) (d : Nat) (v : Version) (Y : List Byte) (n : Nat) (w : Option Word)
    (K K' : Block) (x : Word) :
    ∃ t, finishDecode s d (.ok v Y n w K) = .next t ∧ t.status.ver = s.status.ver ∧ t.seed = w.getD s.seed ∧
      finishDecode ((s.setKs K').setSeed x) d (.ok v Y n w K) = .next (t.setSeed (w.getD x)) := by
  cases w with
  | none => exact ⟨_, rfl, rfl, rfl, rfl⟩
  | some y => exact ⟨_, rfl, rfl, rfl, rfl⟩

/-- The working seed of an OK result is present for v3 alone (R160). -/
theorem workingSeed_isSome_iff_of_decodeBuffer_ok {p : Params} {B : List Byte} {u v : Version} {Y : List Byte} {n : Nat}
    {w : Option Word} {K : Block} (hl : 261 ≤ B.length) (hv : versionOf B.length = some v)
    (h : decodeBuffer p B = .ok u Y n w K) : w.isSome ↔ v = .v3 := by
  have hw : (decodeBuffer p B).workingSeed = w := congrArg Decoded.workingSeed h
  refine ⟨fun hsome => ?_, fun hv3 => ?_⟩
  · by_contra hne
    rw [← hw, decodeBuffer_workingSeed_eq_none p hl hv hne] at hsome
    cases hsome
  · rcases decodeBuffer_eq_decodePayload p hl hv with e | ⟨payload, w', K', -, hsome, e⟩
    · rw [e] at h; cases h
    · rw [← hw, e, decodePayload_workingSeed]
      exact hsome hv3

/-- A successful DECODE from another KS and SEED: SEED keeps the other value unless the version is v3 (R161, R216). -/
theorem execDecode_setKs_setSeed_of_ok {s t : State} (K : Block) (x : Word) (ht : execDecode s = .next t)
    (hok : t.status.err = .ok) :
    execDecode ((s.setKs K).setSeed x) = .next (t.setSeed (if t.status.ver = some .v3 then t.seed else x)) := by
  rcases execDecode_cases s with ⟨c, v, hc, e⟩ | ⟨v, hsrc, hl, hv, hdst, ho, e⟩
  · obtain rfl : (decodeStart s v).complete c = t := Host.Outcome.next.inj (e.symm.trans ht)
    obtain rfl : c = .ok := hok
    simp at hc
  · obtain ⟨u, Y, n, w, L, hr⟩ := eq_ok_of_finishDecode (e.symm.trans ht) hok
    obtain ⟨t', ht', hver, hseed, hother⟩ :=
      finishDecode_ok_setKs_setSeed (decodeStart s (some v)) s.dstAddr.toNat u Y n w L K x
    obtain rfl : t' = t := Host.Outcome.next.inj (ht'.symm.trans (by rw [← hr, ← e, ht]))
    have hw := workingSeed_isSome_iff_of_decodeBuffer_ok (by simpa using hl) (by simpa using hv) hr
    have hvalue : (if t'.status.ver = some .v3 then t'.seed else x) = w.getD x := by
      simp only [hver, hseed, decodeStart_status, Option.some_inj, ← hw]
      cases w <;> rfl
    rw [hvalue, ← hother, ← hr]
    exact execDecode_of_fits ((s.setKs K).setSeed x) hsrc hl hv hdst ho

/-- Settles O41: by `execEncode_setKs_of_ok` and `execDecode_setKs_setSeed_of_ok`. -/
theorem pipelinesIgnoreTheOldKeystream : Obligations.PipelinesIgnoreTheOldKeystream := by
  intro s t K x
  exact ⟨fun ht hok hne => execEncode_setKs_of_ok K ht hok fun h => hne (BitVec.eq_of_toNat_eq h),
    fun ht hok => ⟨_, execDecode_setKs_setSeed_of_ok K x ht hok, rfl⟩⟩

end Sys2Proof.Machine

/-!
Completions and errors (R187, R189, R192): every command ends with its completion actions, and only a completion with OK
or CorruptPadding writes output.
-/
namespace Sys2Proof.Machine

/-! ### Completions (R192) -/

/-- Settles O10: `exec_completes` gives BUSY and DONE, and no command writes CTRL.IE (`exec_keepsOperands`). -/
theorem everyCommandCompletes : Obligations.EveryCommandCompletes := by
  intro i s
  obtain ⟨t, ht, hops⟩ := exec_keepsOperands i s
  obtain ⟨hbusy, hdone⟩ := (ht ▸ exec_completes i s : s.Completes (.next t)).next_status
  exact ⟨t, ht, hbusy, hdone, by rw [State.irq, hdone, hops.ie, Bool.true_and]⟩

/-! ### Errors (R187, R189) -/

/-- What a command outputs, other than DST_LEN and STATUS, is in `t` as it was in `s` (R189). -/
structure State.KeepsOutput (s t : State) : Prop where
  mem : t.mem = s.mem
  ks : t.ks = s.ks
  seed : t.seed = s.seed
  data : t.data = s.data

/-- A result that has the output of `s` unless it is a completion with OK or CorruptPadding (R189). -/
def State.NoOutputOnError (s : State) (r : Result) : Prop :=
  ∀ t, r = .next t → t.status.err ≠ .ok → t.status.err ≠ .corruptPadding → s.KeepsOutput t

theorem State.noOutputOnError_of_ok (s u : State) : s.NoOutputOnError (.next (u.complete .ok)) := by
  rintro _ ⟨⟩ hok -
  exact absurd rfl hok

theorem State.noOutputOnError_of_corruptPadding (s u : State) :
    s.NoOutputOnError (.next (u.complete .corruptPadding)) := by
  rintro _ ⟨⟩ - hpad
  exact absurd rfl hpad

theorem State.KeepsOutput.refl (s : State) : s.KeepsOutput s := ⟨rfl, rfl, rfl, rfl⟩

/-- STATUS is no output, so the completion actions write none. -/
theorem State.KeepsOutput.noOutputOnError {s u : State} (h : s.KeepsOutput u) (c : Code) :
    s.NoOutputOnError (.next (u.complete c)) := by
  rintro _ ⟨⟩ - -
  exact ⟨h.mem, h.ks, h.seed, h.data⟩

theorem execKsIv_noOutputOnError (s : State) : s.NoOutputOnError (execKsIv s) := by
  rw [execKsIv_eq]
  split
  · exact s.noOutputOnError_of_ok _
  · exact (State.KeepsOutput.refl s).noOutputOnError _

theorem onBlock_noOutputOnError (f : Block → Block → Block × Block) (s : State) : s.NoOutputOnError (onBlock f s) := by
  rcases onBlock_cases f s with h | ⟨-, h⟩ <;> rw [h]
  · exact (State.KeepsOutput.refl s).noOutputOnError _
  · exact s.noOutputOnError_of_ok _

theorem execEncode_noOutputOnError (s : State) : s.NoOutputOnError (execEncode s) := by
  have start : s.KeepsOutput (s.setDstLen 0) := ⟨rfl, rfl, rfl, rfl⟩
  rcases execEncode_cases s with ⟨c, -, h⟩ | ⟨-, -, -, -, h⟩ <;> rw [h]
  · exact start.noOutputOnError c
  · exact s.noOutputOnError_of_ok _

/-- Of the ends of DECODE the two that write the decoded payload complete with OK or CorruptPadding (R161). -/
theorem finishDecode_noOutputOnError {s u : State} (h : s.KeepsOutput u) (d : Nat) (r : Decoded) :
    s.NoOutputOnError (finishDecode u d r) := by
  cases r with
  | tooShort => exact h.noOutputOnError .tooShort
  | unknownVersion => exact h.noOutputOnError .unknownVersion
  | integrityMismatch => exact h.noOutputOnError .integrityMismatch
  | corruptPadding v Y w K => exact s.noOutputOnError_of_corruptPadding _
  | ok v Y n w K => exact s.noOutputOnError_of_ok _

theorem execDecode_noOutputOnError (s : State) : s.NoOutputOnError (execDecode s) := by
  have start : ∀ v, s.KeepsOutput (decodeStart s v) := fun _ => ⟨rfl, rfl, rfl, rfl⟩
  rcases execDecode_cases s with ⟨c, v, -, h⟩ | ⟨v, -, -, -, -, -, h⟩ <;> rw [h]
  · exact (start v).noOutputOnError c
  · exact finishDecode_noOutputOnError (start _) _ _

/-- Every command writes output only where it ends with OK or CorruptPadding (R189). -/
theorem exec_noOutputOnError (i : Instr) (s : State) : s.NoOutputOnError (exec i s) := by
  have block : i ∈ [Instr.shuf2, .unshuf1, .unshuf2, .encBlk, .decBlk1, .decBlk2] →
      s.NoOutputOnError (exec i s) := fun hi => by
    obtain ⟨f, hf, -⟩ := exec_eq_onBlock s hi
    exact hf ▸ onBlock_noOutputOnError f s
  cases i with
  | lcgNext => exact s.noOutputOnError_of_ok _
  | ksSeed => exact s.noOutputOnError_of_ok _
  | ksIv => exact execKsIv_noOutputOnError s
  | mark => exact s.noOutputOnError_of_ok _
  | encode => exact execEncode_noOutputOnError s
  | decode => exact execDecode_noOutputOnError s
  | _ => exact block (by decide)

/-- Settles O40, by `exec_noOutputOnError`. -/
theorem errorsOtherThanCorruptPaddingWriteNoOutput : Obligations.ErrorsOtherThanCorruptPaddingWriteNoOutput := by
  intro i s t ht hok hpad
  obtain ⟨hmem, hks, hseed, hdata⟩ := exec_noOutputOnError i s t ht hok hpad
  exact ⟨hmem, hks, hseed, hdata⟩

end Sys2Proof.Machine

/-!
Hazards and reset (R190, R194, R204, R210 to R215): what the host's accesses do by whether BUSY = 1, the interrupt
output, and the platform's reset.
-/
namespace Sys2Proof.Machine

/-- Settles O7: of the steps a block can take, only the idle one is open to it. -/
theorem idleBlockKeepsAllState : Obligations.IdleBlockKeepsAllState := by
  rintro s ⟨hscript, hidle⟩
  rcases step_cases s with ⟨-, -, h⟩ | ⟨hb, -⟩ | ⟨a, rest, hs, -⟩
  · exact h
  · exact absurd hb (by simp [hidle])
  · exact absurd hs (by simp [hscript])

/-! ### Register writes (R190, R213) -/

/-- A write to a register that is locked while BUSY = 1 sets OVR and nothing else (R213). -/
theorem access_writeReg_of_locked {s : State} (hb : s.status.busy = true) {r : Reg} (hr : r.lockedWhileBusy = true)
    (v : Word) : s.access (.writeReg 32 r.offset v) = .next (s.setStatus { s.status with ovr := true }) := by
  simp [State.access, Reg.at_offset, State.hostWriteReg, hb, hr]

/-- A write to any other register is accepted at any time (R213). -/
theorem access_writeReg_of_not_locked (s : State) {r : Reg} (hr : r.lockedWhileBusy = false) (v : Word) :
    s.access (.writeReg 32 r.offset v) = .next (s.acceptWrite v r) := by
  simp [State.access, Reg.at_offset, State.hostWriteReg, hr]

/-- Settles O42: an accepted write to CMD is `State.issue`, and CMD is locked while BUSY = 1. -/
theorem cmdWriteIssuesTheCommand : Obligations.CmdWriteIssuesTheCommand :=
  fun _ v => ⟨fun hb => access_writeReg_of_idle hb .cmd v, fun hb => access_writeReg_of_locked hb (r := .cmd) rfl v⟩

/-- Settles O43: each offset is that of a register, which is locked while BUSY = 1 or not. -/
theorem writesWhileBusyAreDropped : Obligations.WritesWhileBusyAreDropped := by
  intro s v hb
  have dropped : ∀ r : Reg, r.lockedWhileBusy = true →
      s.access (.writeReg 32 r.offset v) = .next (s.setStatus { s.status with ovr := true }) :=
    fun _ hr => access_writeReg_of_locked hb hr v
  have accepted : ∀ r : Reg, r.lockedWhileBusy = false →
      s.access (.writeReg 32 r.offset v) = .next (s.acceptWrite v r) :=
    fun _ hr => access_writeReg_of_not_locked s hr v
  refine ⟨fun o ho => ?_, fun i hi => dropped (.ksw ⟨i, hi⟩) rfl, accepted .status rfl, accepted .ctrl rfl,
    fun o ho => ?_, fun i hi => accepted (.reserved ⟨i, hi⟩) rfl⟩
  · simp only [List.mem_cons, List.not_mem_nil, or_false] at ho
    rcases ho with rfl | rfl | rfl | rfl | rfl | rfl
    exacts [dropped .cmd rfl, dropped .seed rfl, dropped .srcAddr rfl, dropped .srcLen rfl, dropped .dstAddr rfl,
      dropped .data rfl]
  · simp only [List.mem_cons, List.not_mem_nil, or_false] at ho
    rcases ho with rfl | rfl | rfl
    exacts [accepted .dstLen rfl, accepted .id rfl, accepted .cfg rfl]

/-! ### Buffer accesses (R214) -/

theorem access_readMem_of_busy {s : State} (hb : s.status.busy = true) {a : Nat} (ha : a < s.params.memSize) :
    s.access (.readMem 8 a) =
      .next (s.saw (.byte a (Config.freeByte s.params.regBase s.draws))).drawn := by
  rw [State.access, if_pos ⟨rfl, ha⟩, State.hostReadByte, if_pos hb]

/-- Settles O50. -/
theorem bufferAccessesWhileBusy : Obligations.BufferAccessesWhileBusy :=
  fun _ _ _ hb ha => ⟨access_writeMem_eq_refused_iff.2 (.inr ⟨rfl, ⟨rfl, ha⟩, hb⟩), access_readMem_of_busy hb ha⟩

/-! ### Register reads (R215) -/

/-- A register read returns the rule value while BUSY = 0, and at any time where R215 does not leave it open. -/
theorem access_readReg_regValue {s : State} {r : Reg} (h : s.status.busy = false ∨ r.openWhileBusy = false) :
    s.access (.readReg 32 r.offset) = .next (s.saw (.reg r.offset (s.regValue r))) := by
  rcases h with h | h <;> simp [State.access, Reg.at_offset, State.hostReadReg, h]

/-- Where R215 leaves it open, a register read while BUSY = 1 returns a free value. -/
theorem access_readReg_of_open {s : State} (hb : s.status.busy = true) {r : Reg} (hr : r.openWhileBusy = true) :
    s.access (.readReg 32 r.offset) =
      .next (s.saw (.reg r.offset (Config.freeWord s.params.regBase s.draws))).drawn := by
  simp [State.access, Reg.at_offset, State.hostReadReg, hb, hr]

/-- CTRL reads as IE (R26). -/
theorem ctrlWord_eq_ite (ie : Bool) : ctrlWord ie = if ie then 1 else 0 := by
  cases ie <;> decide

/-- Settles O51: each offset is that of a register, whose reads R215 leaves open while BUSY = 1 or not. -/
theorem registerReadsHaveNoSideEffect : Obligations.RegisterReadsHaveNoSideEffect := by
  intro s
  have fixed : ∀ r : Reg, r.openWhileBusy = false →
      s.access (.readReg 32 r.offset) = .next (s.saw (.reg r.offset (s.regValue r))) :=
    fun _ hr => access_readReg_regValue (.inr hr)
  refine ⟨fun r => ⟨fun hb => access_readReg_regValue (.inl hb), fun _ hr => ?_, fun hb hr => ?_⟩, fun c hc => ?_,
    fun hb => ⟨fun c hc => ?_, fun i => access_readReg_regValue (r := .ksw i) (.inl hb)⟩, fun hb o ho => ?_⟩
  · refine fixed r ?_
    simp only [List.mem_cons, List.not_mem_nil, or_false] at hr
    rcases hr with rfl | rfl | rfl | rfl | rfl | rfl | rfl | rfl <;> rfl
  · refine access_readReg_of_open hb ?_
    simp only [List.mem_cons, List.not_mem_nil, or_false] at hr
    rcases hr with (rfl | rfl | rfl) | ⟨i, rfl⟩ <;> rfl
  · rw [← ctrlWord_eq_ite] at hc
    simp only [List.mem_cons, List.not_mem_nil, or_false] at hc
    rcases hc with rfl | rfl | rfl | rfl | rfl | rfl | rfl | rfl
    exacts [fixed .cmd rfl, fixed .status rfl, fixed .ctrl rfl, fixed .srcAddr rfl, fixed .srcLen rfl,
      fixed .dstAddr rfl, fixed .id rfl, fixed .cfg rfl]
  · have idle : ∀ r : Reg, s.access (.readReg 32 r.offset) = .next (s.saw (.reg r.offset (s.regValue r))) :=
      fun _ => access_readReg_regValue (.inl hb)
    simp only [List.mem_cons, List.not_mem_nil, or_false] at hc
    rcases hc with rfl | rfl | rfl
    exacts [idle .seed, idle .dstLen, idle .data]
  · have drawn : ∀ r : Reg, r.openWhileBusy = true → s.access (.readReg 32 r.offset) =
        .next (s.saw (.reg r.offset (Config.freeWord s.params.regBase s.draws))).drawn :=
      fun _ hr => access_readReg_of_open hb hr
    simp only [List.mem_cons, List.not_mem_nil, or_false] at ho
    rcases ho with (rfl | rfl | rfl) | ⟨i, hi, rfl⟩
    exacts [drawn .seed rfl, drawn .dstLen rfl, drawn .data rfl, drawn (.ksw ⟨i, hi⟩) rfl]

/-! ### The interrupt output (R194, R195) -/

/-- IRQ needs both DONE and CTRL.IE (R194). -/
theorem State.irq_eq_false {s : State} (h : s.status.done = false ∨ s.ie = false) : s.irq = false := by
  rcases h with h | h <;> simp [State.irq, h]

/-- Settles O52: a completion sets DONE, and each other access leaves DONE = 0 or IE = 0. -/
theorem irqIsRaisedByCompletionAndCleared : Obligations.IrqIsRaisedByCompletionAndCleared := by
  intro s
  refine ⟨fun c => Bool.true_and s.ie, fun v hv => ⟨_, access_writeReg_status s v, State.irq_eq_false (.inl ?_)⟩,
    fun v hv => ⟨_, access_writeReg_of_not_locked s (r := .ctrl) rfl v, State.irq_eq_false (.inr hv), rfl⟩,
    fun v hb => ⟨_, access_writeReg_of_idle hb .cmd v, State.irq_eq_false (.inl rfl)⟩,
    _, rfl, State.irq_eq_false (.inl rfl)⟩
  simp [Status.writeOneToClear, hv]

/-! ### Reset (R210) -/

/-- After a reset every register but CFG reads as it does after power-on (R210). -/
theorem regValue_platformReset (s : State) {r : Reg} (hr : r ≠ .cfg) :
    s.platformReset.regValue r = State.reset.regValue r := by
  cases r with
  | cfg => exact absurd rfl hr
  | _ => rfl

/-- Settles O53: by the values after power-on, and what `State.platformReset` keeps. -/
theorem resetLeavesTheResetValues : Obligations.ResetLeavesTheResetValues := by
  intro s
  obtain ⟨hzero, hid, -⟩ := registersReadTheirResetValues
  refine ⟨s.platformReset, rfl, fun r hrid hrcfg => (regValue_platformReset s hrcfg).trans (hzero r hrid hrcfg), hid, rfl,
    fun i hi => ?_, rfl, rfl, rfl, rfl, rfl⟩
  simp

end Sys2Proof.Machine
